-- ==== Sys2Proof/Word.lean ====
section
/-!
DEFINITION. The word types of NUPX, each as wide as spec/00_scope.md and spec/10_state.md make it (rules R8, R10, R22, R84).
-/

namespace Sys2Proof

/-- A byte of a packet (R10). -/
abbrev Byte := BitVec 8

/-- A colour index: one nibble, one pixel (R130). -/
abbrev ColorIndex := BitVec 4

/-- A display glyph: an 8-bit code (R8, decision D14). -/
abbrev Glyph := BitVec 8

/-- The 16-bit line word of a packet header (R53, R81). -/
abbrev LineWord := BitVec 16

/-- A display line number of 15 bits: a start line or a target line (R24, R84). -/
abbrev LineNo := BitVec 15

/-- A 0-based line index within a packet: 2 bits, so never outside 0 to 3 (R25, R84). -/
abbrev LineIdx := BitVec 2

/-- A command word: 20 bits (R84). -/
abbrev CmdWord := BitVec 20

/-- One emitted line: its glyphs, left to right (R29). -/
abbrev Record := List Glyph

end Sys2Proof
end

