-- ==== Sys2Proof/Config.lean ====
section
/-!
DEFINITION. The parameters of NUPX: the constants the spec fixes (spec/00_scope.md rule R6), the two it leaves open (`BPL` and
`PALETTE`, rules R7 and R8, decisions D17 and D15) as plain data with no value chosen, and the model's free values.
-/

namespace Sys2Proof.Config

/-- `HEADER_SIZE`: bytes of header before the pixel payload (R6). -/
abbrev headerSize : Nat := 12

/-- `LINES_PER_PACKET`: scanline segments per packet (R6). -/
abbrev linesPerPacket : Nat := 4

/-- `LINE_MASK`: the mask applied to the 16-bit line word (R6). -/
abbrev lineMask : LineWord := 0x7FFF

/-- `LINE_FIELD_OFFSET`: offset of the low byte of the line word; the high byte stands one above (R6). -/
abbrev lineFieldOffset : Nat := 4

/-- `BITS_PER_PIXEL` (R6): the width of `ColorIndex`. -/
abbrev bitsPerPixel : Nat := 4

/-- `PALETTE_SIZE` (R6): the number of glyphs of `Params.palette`. -/
abbrev paletteSize : Nat := 16

/-- `RX_BUF_SIZE` (R6), which is `PKT_CAP`, the capacity of the packet buffer (R9, decision D4). -/
abbrev rxBufSize : Nat := 2048

/-- `MIDDLE_LINE`: the live driver's fixed target line (R6, R91). -/
abbrev middleLine : LineNo := 136

/-- `DISPLAY_HEIGHT`: used by no rule, a start line is never compared with it (R6, R112). -/
abbrev displayHeight : Nat := 272

/-- `LISTEN_PORT`: the host's only (R6, R4). -/
abbrev listenPort : Nat := 11000

/-- `POLL_TIMEOUT` in seconds: the host's only (R6, R4). -/
abbrev pollTimeoutSeconds : Nat := 1

/-- The code of the glyph `'G'`, palette entry 5 (R8; PRESUMED, the spec's own passage K1 from general knowledge, log 15). -/
abbrev glyphG : Glyph := 0x47

/-- The code of the glyph `'r'`, palette entry 10 (R8; PRESUMED, the spec's own passage K1 from general knowledge, log 15). -/
abbrev glyphR : Glyph := 0x72

/-- The parameters the source leaves open: `BPL`, the bytes of one scanline segment (R7), and `PALETTE`, the glyph of each colour
index (R8). Plain data: a state carries them in a field that no step changes (log 1), so that a statement about every state is a
statement about every `BPL` and every `PALETTE`. -/
structure Params where
  bpl     : Nat
  palette : Vector Glyph 16
  deriving DecidableEq, Repr

/-- `PALETTE[c]` (R60: every 4-bit index is in range). -/
def Params.glyph (p : Params) (c : ColorIndex) : Glyph := p.palette.get c.toFin

/-- `PIXELS_PER_LINE = 2 * BPL` (R9). -/
abbrev Params.pixelsPerLine (p : Params) : Nat := 2 * p.bpl

/-- `FULL_PACKET_LEN = HEADER_SIZE + LINES_PER_PACKET * BPL` (R9). -/
abbrev Params.fullPacketLen (p : Params) : Nat := headerSize + linesPerPacket * p.bpl

/-- What the spec requires of the parameters: `BPL` is positive (R7), a full packet fits the buffer (R9), and the two known
palette entries are as the source gives them (R8). -/
def Params.wf (p : Params) : Bool :=
  0 < p.bpl && p.fullPacketLen ≤ rxBufSize && p.glyph 5 == glyphG && p.glyph 10 == glyphR

/-- OPEN (R7, U1): `BPL - 1`. Nothing says which of the 509 admitted values it is. -/
opaque bplLessOne : Fin 509

/-- OPEN (R8, U2): the palette's glyphs other than entries 5 and 10. Nothing says what they are. -/
opaque openGlyph : ColorIndex → Glyph

/-- The parameters of the machine as instantiated: `BPL` any value the spec admits, `PALETTE` any table with entries 5 and 10
pinned (R7, R8, R9). -/
def params : Params where
  bpl := bplLessOne.val + 1
  palette := Vector.ofFn fun i =>
    if i.val = 5 then glyphG else if i.val = 10 then glyphR else openGlyph (BitVec.ofNat 4 i.val)

/-- FREE VALUE (R26, R28, U8): what the register read port returns for an element of `LINE_BUF` while `LINE_OK = 0`, one for
each time it is asked (log 6). -/
opaque undefinedElement : Nat → ColorIndex

end Sys2Proof.Config
end

