-- ==== Sys2Proof/Syntax.lean ====
section
/-!
DEFINITION. The instructions of NUPX: one constructor per row of spec/opcode_table.json (spec/30_encoding.md rules R84, R87, R91).
-/

namespace Sys2Proof

/-- The operations a command word asks for. The operands are the source's non-packet arguments (R84). -/
inductive Instr where
  /-- HDR, header extract (R111). -/
  | hdr
  /-- SEL, line select (R121). -/
  | sel (target : LineNo)
  /-- PXL, pixel-line unpack (R132). -/
  | pxl (idx : LineIdx)
  /-- RND, render the line buffer (R147). -/
  | rnd
  /-- LIVE, decode and render one wanted line (R155). -/
  | live (target : LineNo)
  /-- RPLY, decode and render every line of the packet (R156). -/
  | rply
  /-- MON, the pseudo-instruction: another spelling of LIVE 136 (R91; log 9). No decoder yields it. -/
  | mon
  deriving DecidableEq, Repr

end Sys2Proof
end

