-- ==== Sys2Proof/WellFormed.lean ====
section
/-!
DEFINITION. Which instructions are well formed: the ones a command word stands for. The operands' ranges (R84: `idx` 0 to 3,
`target` 0 to 32767) are their types' widths, so the one thing left to check is that an instruction is no pseudo-instruction (R91).
-/

namespace Sys2Proof

/-- What a pseudo-instruction expands to; every other instruction is itself (R91: `MON` expands to `LIVE 136`). -/
def Instr.expand : Instr → Instr
  | .hdr => .hdr
  | .sel t => .sel t
  | .pxl i => .pxl i
  | .rnd => .rnd
  | .live t => .live t
  | .rply => .rply
  | .mon => .live Config.middleLine

/-- An instruction is well formed when it is an operation of R87's map, not a spelling of one. -/
def Instr.wellFormed (i : Instr) : Bool := i.expand == i

end Sys2Proof
end

