-- ==== Sys2Proof/Decode.lean ====
section
/-!
DEFINITION. Command words: the decoder, total on all 2^20 words and rejecting by name, then the encoder, both from the field table
of spec/30_encoding.md rules R84, R86, R87 and R88; and the opcode table's own match and mask rows.
-/

namespace Sys2Proof

/-- Why a word is no command (R88). The names are the model's; the machine answers every one of them the same way (log 18). -/
inductive DecodeError where
  /-- `op` is 110 or 111. -/
  | reservedOp (op : BitVec 3)
  /-- `idx` is not zero in an operation that does not use it. -/
  | unusedIdx (idx : LineIdx)
  /-- `target` is not zero in an operation that does not use it. -/
  | unusedTarget (target : LineNo)
  deriving DecidableEq, Repr

/-- `op = CMD[19:17]` (R84). -/
def opField (w : CmdWord) : BitVec 3 := w.extractLsb' 17 3

/-- `idx = CMD[16:15]` (R86). -/
def idxField (w : CmdWord) : LineIdx := w.extractLsb' 15 2

/-- `target = CMD[14:0]` (R86). -/
def targetField (w : CmdWord) : LineNo := w.extractLsb' 0 15

/-- The reading `r`, when the word's `idx` is zero (R87: a field the operation does not use must be zero). -/
def needIdxZero (w : CmdWord) (r : Except DecodeError Instr) : Except DecodeError Instr :=
  if idxField w = 0 then r else .error (.unusedIdx (idxField w))

/-- The reading `r`, when the word's `target` is zero (R87). -/
def needTargetZero (w : CmdWord) (r : Except DecodeError Instr) : Except DecodeError Instr :=
  if targetField w = 0 then r else .error (.unusedTarget (targetField w))

/-- The decoder (R87, R88). -/
def decode (w : CmdWord) : Except DecodeError Instr :=
  match (opField w).toNat with
  | 0 => needIdxZero w (needTargetZero w (.ok .hdr))
  | 1 => needIdxZero w (.ok (.sel (targetField w)))
  | 2 => needTargetZero w (.ok (.pxl (idxField w)))
  | 3 => needIdxZero w (needTargetZero w (.ok .rnd))
  | 4 => needIdxZero w (.ok (.live (targetField w)))
  | 5 => needIdxZero w (needTargetZero w (.ok .rply))
  | _ => .error (.reservedOp (opField w))

/-- A command word from its three fields (R84). -/
def commandWord (op : BitVec 3) (idx : LineIdx) (target : LineNo) : CmdWord := op ++ idx ++ target

/-- The encoder (R87; `MON` is `LIVE 136`, R91). -/
def encode : Instr → CmdWord
  | .hdr => commandWord 0b000 0 0
  | .sel t => commandWord 0b001 0 t
  | .pxl i => commandWord 0b010 i 0
  | .rnd => commandWord 0b011 0 0
  | .live t => commandWord 0b100 0 t
  | .rply => commandWord 0b101 0 0
  | .mon => commandWord 0b100 0 Config.middleLine

/-- One row of spec/opcode_table.json: a word is the row's when its bits under `mask` are `pattern`. -/
structure OpcodeRow where
  mnemonic : String
  pattern  : CmdWord
  mask     : CmdWord
  deriving DecidableEq, Repr

/-- The six core rows of spec/opcode_table.json (its row `MON` is an instance of `LIVE`, which a decoder ignores). -/
def opcodeRows : List OpcodeRow :=
  [ ⟨"HDR", 0x00000, 0xFFFFF⟩, ⟨"SEL", 0x20000, 0xF8000⟩, ⟨"PXL", 0x40000, 0xE7FFF⟩,
    ⟨"RND", 0x60000, 0xFFFFF⟩, ⟨"LIVE", 0x80000, 0xF8000⟩, ⟨"RPLY", 0xA0000, 0xFFFFF⟩ ]

/-- Whether a word is a row's. -/
def OpcodeRow.holds (r : OpcodeRow) (w : CmdWord) : Bool := w &&& r.mask == r.pattern

/-- The mnemonic of an instruction (R87, R91). -/
def mnemonicOf : Instr → String
  | .hdr => "HDR"
  | .sel _ => "SEL"
  | .pxl _ => "PXL"
  | .rnd => "RND"
  | .live _ => "LIVE"
  | .rply => "RPLY"
  | .mon => "MON"

/-- The command word whose low `nbits` bits are `w`'s and whose other bits are zero. -/
def tableWord (nbits w : Nat) : CmdWord := BitVec.ofNat 20 (w % 2 ^ nbits)

/-- The instruction the decoder reads from an opcode-table word. A command word has 20 bits (R84): where the table pads it to whole
bytes, a padding bit that is set makes it no command word (log 10). -/
def decodeTableWord (nbits w : Nat) : Option Instr :=
  if w % 2 ^ nbits < 2 ^ 20 then (decode (tableWord nbits w)).toOption else none

end Sys2Proof
end

