-- ==== Sys2Proof/Machine/State.lean ====
section
/-!
DEFINITION. The state of NUPX: every register of spec/10_state.md rule R22 under its own name, and beside them the model's own fields
(the parameters, the host's transactions still to be served, the last answer to the host, the counter of the free values).
-/

namespace Sys2Proof.Machine

/-- The contents of a byte-addressed store, as the bytes something has written (R50, R51). Its canonical form is `Memory.wf`. -/
abbrev Memory := List Host.Cell

/-- The five kinds of transaction a host makes (R35, R62, R205). -/
inductive Transaction where
  /-- Load port: a packet (R33). -/
  | load (packet : List Byte)
  /-- Command port: a 20-bit word, legal or not (R84, R88). -/
  | command (word : CmdWord)
  /-- Register read port: a register's number and, for `LINE_BUF`, the element's index `k` (R28). -/
  | readReg (number k : Nat)
  /-- Output port: remove the oldest record (R29, R35). -/
  | drain
  /-- Reset (R37, R38). -/
  | reset
  deriving DecidableEq, Repr

/-- What the host gets from a transaction (R205, column "host gets"). -/
inductive Answer where
  /-- Nothing (load, command, reset). -/
  | nothing
  /-- Register 0, `STATUS` (R28). -/
  | status (v : BitVec 9)
  /-- Register 1, `START_LINE` (R28). -/
  | startLine (v : LineNo)
  /-- Register 2, `SEL_IDX` (R28). -/
  | selIdx (v : LineIdx)
  /-- Register 3, `PKT_LEN` (R28). -/
  | pktLen (v : BitVec 12)
  /-- Register 4, one element of `LINE_BUF` (R28). -/
  | element (v : ColorIndex)
  /-- The record a drain removed (R29). -/
  | record (r : Record)
  /-- A drain that found `OUT` empty (R205). -/
  | empty
  deriving DecidableEq, Repr

/-- Why the machine stops. The block itself never does (R171, R185): no state that meets the invariant of R32 reaches the first
three, and the last two answer a host that reads what does not exist. -/
inductive Fault where
  /-- Raised by a read of the packet buffer at or above `PKT_LEN`, for which `MemRead` is not defined (R12, R58). Safe. -/
  | beyondPacket (offset : Nat)
  /-- Raised by a read of the packet buffer below `PKT_LEN` at a byte nothing has written: it has no value (R37, U6). Safe. -/
  | unloadedByte (offset : Nat)
  /-- Raised by a read of `LINE_BUF` while `LINE_OK = 1` and it holds no value (R13, U8). Safe. -/
  | lineBufInvalid
  /-- Raised by the register read port for a number other than 0 to 4 (R28). Safe. -/
  | noSuchRegister (number : Nat)
  /-- Raised by the register read port for an element of `LINE_BUF` beyond its last (R22, R28). Safe. -/
  | noSuchElement (k : Nat)
  deriving DecidableEq, Repr

/-- Why a step has no meaning. -/
inductive Refusal where
  /-- Raised by `exec` for an instruction the model gives no meaning yet. Safe. -/
  | notModelled (mnemonic : String)
  /-- Raised by a load of more than 2048 bytes, which "cannot be loaded" (R33, U13): the host must cut it first (R205). Safe. -/
  | packetTooLong (length : Nat)
  deriving DecidableEq, Repr

/-- The state. The first eleven fields are the complete state of R22; the last four are the model's own. -/
structure State where
  /-- `PKT`: the packet buffer's written bytes (R23). -/
  pkt       : Memory
  /-- `PKT_LEN` (R23). -/
  pktLen    : BitVec 12
  /-- `START_LINE` (R24). -/
  startLine : LineNo
  /-- `HDR_OK` (R24). -/
  hdrOk     : Bool
  /-- `SEL_IDX` (R25). -/
  selIdx    : LineIdx
  /-- `MATCH` (R25). -/
  matched   : Bool
  /-- `LINE_BUF`, or `INVALID` as `none` (R13, R26). -/
  lineBuf   : Option (List ColorIndex)
  /-- `LINE_OK` (R26). -/
  lineOk    : Bool
  /-- `EMIT_CNT` (R27). -/
  emitCnt   : BitVec 3
  /-- `CODE` (R27). -/
  code      : BitVec 3
  /-- `OUT`, oldest record first (R29). -/
  out       : List Record
  /-- The parameters `BPL` and `PALETTE` (R7, R8, R21; log 1). -/
  params    : Config.Params
  /-- The host's transactions still to be served, oldest first (R21, R35; log 2). -/
  inbox     : List Transaction
  /-- What the last transaction gave the host (R35, R205; log 3). -/
  answer    : Answer
  /-- How many undefined values have been taken (log 6). -/
  freeCount : Nat
  deriving DecidableEq, Repr

/-- The state right after reset (R37, R195): every register at the value of R37's table, the packet buffer with no readable byte,
the parameters at their values; the model's own fields as log 2, log 3 and log 6 say. -/
def State.reset : State where
  pkt       := []
  pktLen    := 0
  startLine := 0
  hdrOk     := false
  selIdx    := 0
  matched   := false
  lineBuf   := none
  lineOk    := false
  emitCnt   := 0
  code      := 0
  out       := []
  params    := Config.params
  inbox     := []
  answer    := .nothing
  freeCount := 0

end Sys2Proof.Machine
end

