-- ==== Sys2Proof/Machine/Flags.lean ====
section
/-!
DEFINITION. The conditions and their codes (spec/60_exceptions.md rule R170) and the packed view STATUS (spec/10_state.md rule R28).
-/

namespace Sys2Proof.Machine

/-- The outcomes of an operation (R170). -/
inductive Condition where
  | ok
  | shortPacket
  | noMatch
  | insufficientData
  | notReady
  | illegalCmd
  deriving DecidableEq, Repr

/-- The number of a condition in `CODE` (R170). -/
def Condition.code : Condition → BitVec 3
  | .ok => 0
  | .shortPacket => 1
  | .noMatch => 2
  | .insufficientData => 3
  | .notReady => 4
  | .illegalCmd => 5

/-- `STATUS` (R28): bit 0 `HDR_OK`, bit 1 `MATCH`, bit 2 `LINE_OK`, bits 5:3 `CODE`, bits 8:6 `EMIT_CNT`. -/
def State.status (s : State) : BitVec 9 :=
  s.emitCnt ++ s.code ++ BitVec.ofBool s.lineOk ++ BitVec.ofBool s.matched ++ BitVec.ofBool s.hdrOk

end Sys2Proof.Machine
end

