-- ==== Sys2Proof/Machine/Operands.lean ====
section
/-!
DEFINITION. Operand assembly (spec/30_encoding.md rules R85, R86; spec/20_memory.md rules R52 to R55): the line word and the start
line, the nibbles of a pixel byte, the offsets of a segment, the selection comparison.
-/

namespace Sys2Proof.Machine

/-- `W = (PKT[5] << 8) | PKT[4]`, little-endian (R53, R85). -/
def lineWord (byte5 byte4 : Byte) : LineWord := (byte5.setWidth 16 <<< 8) ||| byte4.setWidth 16

/-- `startLine = W[14:0]`; bit 15 is dropped (R81, R85). -/
def startLineOf (w : LineWord) : LineNo := w.extractLsb' 0 15

/-- The left pixel of a byte, `b[7:4]` (R54). -/
def leftPixel (b : Byte) : ColorIndex := b.extractLsb' 4 4

/-- The right pixel of a byte, `b[3:0]` (R54). -/
def rightPixel (b : Byte) : ColorIndex := b.extractLsb' 0 4

/-- The colour indices of a segment's bytes in scan order: element `2j` is byte `j`'s left pixel, element `2j+1` its right (R55).
A pure map: no lane reads another's input (R133). -/
def unpackBytes : List Byte → List ColorIndex
  | [] => []
  | b :: bs => leftPixel b :: rightPixel b :: unpackBytes bs

/-- `PIXLEN`, the length of the pixel payload of a packet of `n >= 12` bytes (R82). -/
abbrev pixLen (n : Nat) : Nat := n - Config.headerSize

/-- The packet offset of segment `i`'s first byte, `12 + i*BPL` (R52, R86). -/
def segmentStart (bpl i : Nat) : Nat := Config.headerSize + i * bpl

/-- Whether segment `i` of a packet of `n >= 12` bytes is complete: `(i + 1) * BPL <= PIXLEN` (R132, R135). -/
def segmentComplete (bpl i n : Nat) : Bool := i * bpl + bpl ≤ pixLen n

/-- Whether target line `t` is one of the four lines of a packet that starts at `s`: on integers, so `s + 4` is never reduced
(R120, R122; decision D13, log 12). -/
def targetInPacket (s t : LineNo) : Bool :=
  s.toNat ≤ t.toNat && t.toNat < s.toNat + Config.linesPerPacket

/-- `(target - START_LINE)[1:0]` (R121). -/
def selectedIdx (s t : LineNo) : LineIdx := BitVec.ofNat 2 (t.toNat - s.toNat)

end Sys2Proof.Machine
end

