-- ==== Sys2Proof/Machine/Ops.lean ====
section
/-!
DEFINITION. The named operations over memory and registers that every meaning is written with: the packet buffer's reads and writes
(spec/00_scope.md rule R12, spec/20_memory.md), the writes of each pair of a result register and its flag (spec/10_state.md rule R31),
emitting a record, and raising a condition (spec/60_exceptions.md rule R171): the one thing this block has in place of taking an
exception. It has no exception entry and no return (R171, R180).
-/

namespace Sys2Proof.Machine

/-- What a step answers. -/
abbrev Result := Host.Outcome State Fault Refusal

/-- What an address that no cell lists reads as: no value (log 4). -/
def Memory.unlisted : Option Byte := none

/-- The value a byte of the packet buffer holds, or none where nothing has written it (R37, U6; log 4). -/
def Memory.read : Memory → Nat → Option Byte
  | [], _ => Memory.unlisted
  | (k, b) :: m, a => if a = k then some b else Memory.read m a

/-- Writes one byte, keeping the addresses rising. -/
def Memory.write : Memory → Nat → Byte → Memory
  | [], a, v => [(a, v)]
  | (k, b) :: m, a, v =>
    if a < k then (a, v) :: (k, b) :: m
    else if a = k then (a, v) :: m
    else (k, b) :: Memory.write m a v

/-- Writes consecutive bytes from address `a` upward. -/
def Memory.writeBytes : Memory → Nat → List Byte → Memory
  | m, _, [] => m
  | m, a, v :: vs => Memory.writeBytes (Memory.write m a v) (a + 1) vs

/-- Whether a memory's addresses rise strictly from at least `least` and stay inside the packet buffer's 2048 bytes (R50). -/
def Memory.wfFrom : Nat → Memory → Bool
  | _, [] => true
  | least, (k, _) :: m => least ≤ k && k < Config.rxBufSize && Memory.wfFrom (k + 1) m

/-- The canonical form: addresses strictly rising, all inside the buffer. An unlisted address has no value, so no entry can equal
what an unlisted address reads as. -/
def Memory.wf (m : Memory) : Bool := Memory.wfFrom 0 m

/-- `MemRead(a, 1)`: defined only below `PKT_LEN` (R12), and there only for a byte that has a value. -/
def State.memRead (s : State) (a : Nat) : Except Fault Byte :=
  if a < s.pktLen.toNat then
    match s.pkt.read a with
    | some b => .ok b
    | none => .error (.unloadedByte a)
  else .error (.beyondPacket a)

/-- `n` reads at consecutive offsets from `a`. -/
def State.memReads (s : State) (a : Nat) : Nat → Except Fault (List Byte)
  | 0 => .ok []
  | n + 1 =>
    match s.memRead a with
    | .error f => .error f
    | .ok b =>
      match s.memReads (a + 1) n with
      | .error f => .error f
      | .ok bs => .ok (b :: bs)

/-- Goes on with a read value, or stops with the read's fault. -/
def andThen {α : Type} (r : Except Fault α) (k : α → Result) : Result :=
  match r with
  | .ok x => k x
  | .error f => .fault f

/-- `raise <Condition>`: writes the condition's code to `CODE`; nothing traps (R12, R171). -/
def State.raise (c : Condition) (s : State) : State := { s with code := c.code }

/-- `EMIT_CNT <- n` (R27). -/
def State.setEmitCnt (n : Nat) (s : State) : State := { s with emitCnt := BitVec.ofNat 3 n }

/-- `START_LINE <- l ; HDR_OK <- 1` (R24). -/
def State.setHeader (l : LineNo) (s : State) : State := { s with startLine := l, hdrOk := true }

/-- `START_LINE <- 0 ; HDR_OK <- 0` (R24, decision D6). -/
def State.clearHeader (s : State) : State := { s with startLine := 0, hdrOk := false }

/-- `SEL_IDX <- i ; MATCH <- 1` (R25). -/
def State.setSelection (i : LineIdx) (s : State) : State := { s with selIdx := i, matched := true }

/-- `SEL_IDX <- 0 ; MATCH <- 0` (R25, decision D6). -/
def State.clearSelection (s : State) : State := { s with selIdx := 0, matched := false }

/-- `LINE_BUF <- l ; LINE_OK <- 1`, the whole line at once (R26, R136). -/
def State.setLine (l : List ColorIndex) (s : State) : State := { s with lineBuf := some l, lineOk := true }

/-- `LINE_BUF <- INVALID ; LINE_OK <- 0` (R13, R26). -/
def State.clearLine (s : State) : State := { s with lineBuf := none, lineOk := false }

/-- `emit(rec)`: appends one record to `OUT`; it never fails and never stalls (R12, R29; decision D16, log 14). -/
def State.emit (r : Record) (s : State) : State := { s with out := s.out ++ [r] }

/-- Whether the packet is too short to hold a header: `PKT_LEN < 12` (R58, R172). -/
def State.shortPacket (s : State) : Bool := s.pktLen.toNat < Config.headerSize

/-- The start line in the packet's header: bytes 4 and 5, each read once (R57, R110). -/
def State.readStartLine (s : State) : Except Fault LineNo :=
  match s.memRead (Config.lineFieldOffset + 1) with
  | .error f => .error f
  | .ok byte5 =>
    match s.memRead Config.lineFieldOffset with
    | .error f => .error f
    | .ok byte4 => .ok (startLineOf (lineWord byte5 byte4))

/-- Whether segment `i` is wholly inside the packet (R132); asked only of a packet that is not short. -/
def State.hasSegment (s : State) (i : Nat) : Bool := segmentComplete s.params.bpl i s.pktLen.toNat

/-- The colour indices of segment `i`: its `BPL` bytes, each read once, unpacked (R57, R132). -/
def State.readSegment (s : State) (i : Nat) : Except Fault (List ColorIndex) :=
  match s.memReads (segmentStart s.params.bpl i) s.params.bpl with
  | .error f => .error f
  | .ok bs => .ok (unpackBytes bs)

/-- `[PALETTE[c[k]] for every k]`: the look-up, lane by lane (R146, R149). -/
def lookUp (p : Config.Params) (line : List ColorIndex) : Record := line.map p.glyph

/-- The line buffer's contents; a rule reads it only behind `LINE_OK` (R13, U8; log 11). -/
def State.readLine (s : State) : Except Fault (List ColorIndex) :=
  match s.lineBuf with
  | some l => .ok l
  | none => .error .lineBufInvalid

/-- Render the decoded line: look up every element of `LINE_BUF` and emit the record (R147). -/
def State.renderLine (s : State) : Except Fault State :=
  match s.readLine with
  | .error f => .error f
  | .ok l => .ok (s.emit (lookUp s.params l))

end Sys2Proof.Machine
end

