-- ==== Sys2Proof/Machine/Composite.lean ====
section
/-!
DEFINITION. The meanings of LIVE and RPLY, and of the pseudo-instruction MON (spec/44_composite.md rules R155, R156, R158;
spec/30_encoding.md rule R91).
-/

namespace Sys2Proof.Machine

/-- Step 0 of both composites: forget earlier results (R155, R156; decision D21). -/
def forgetResults (s : State) : State := (s.clearSelection.clearLine).setEmitCnt 0

/-- Steps 3 and 4 of LIVE: unpack segment `i`, then render it (R155). -/
def unpackAndRender (i : Nat) (s : State) : Except Fault State :=
  match s.readSegment i with
  | .error f => .error f
  | .ok l => (s.setLine l).renderLine

/-- Steps 2 to 4 of LIVE on a state whose header has been decoded (R155). -/
def liveSelected (target : LineNo) (s : State) : Result :=
  if targetInPacket s.startLine target then
    let s := s.setSelection (selectedIdx s.startLine target)
    if s.hasSegment s.selIdx.toNat then
      andThen (unpackAndRender s.selIdx.toNat s) fun t => .next (t.setEmitCnt 1 |>.raise .ok)
    else .next (s.raise .insufficientData)
  else .next (s.raise .noMatch)

/-- The body of LIVE (R155): tests in the order short packet, no match, insufficient data (R179). -/
def liveBody (target : LineNo) (s : State) : Result :=
  let s := forgetResults s
  if s.shortPacket then .next (s.clearHeader.raise .shortPacket)
  else andThen s.readStartLine fun l => liveSelected target (s.setHeader l)

/-- LIVE (R155). -/
def execLive (target : LineNo) (s : State) : Result := liveBody target s

/-- MON: LIVE 136 (R91; log 9). -/
def execMon (s : State) : Result := liveBody Config.middleLine s

/-- One line of RPLY (R156): an incomplete one is skipped alone, a complete one is unpacked and rendered. Answers the state and
how many records it emitted. -/
def replayLine (i : LineIdx) (s : State) : Except Fault (State × Nat) :=
  if s.hasSegment i.toNat then
    match unpackAndRender i.toNat s with
    | .error f => .error f
    | .ok t => .ok (t, 1)
  else .ok (s.clearLine, 0)

/-- The lines of RPLY, one after the other (R156; decision D20: in index order, log 13), and how many records came out. -/
def replayLines : List LineIdx → State → Except Fault (State × Nat)
  | [], s => .ok (s, 0)
  | i :: rest, s =>
    match replayLine i s with
    | .error f => .error f
    | .ok (t, n) =>
      match replayLines rest t with
      | .error f => .error f
      | .ok (u, m) => .ok (u, n + m)

/-- The end of RPLY: `EMIT_CNT <- n`, and whether all four lines came out (R156). -/
def finishReplay (n : Nat) (s : State) : State :=
  (s.setEmitCnt n).raise (if n = Config.linesPerPacket then .ok else .insufficientData)

/-- RPLY (R156). -/
def execRply (s : State) : Result :=
  let s := forgetResults s
  if s.shortPacket then .next (s.clearHeader.raise .shortPacket)
  else andThen s.readStartLine fun l =>
    andThen (replayLines [0, 1, 2, 3] (s.setHeader l)) fun r => .next (finishReplay r.2 r.1)

end Sys2Proof.Machine
end

