-- ==== Sys2Proof/Machine/Header.lean ====
section
/-!
DEFINITION. The meaning of HDR (spec/40_header.md rule R111).
-/

namespace Sys2Proof.Machine

/-- HDR (R111). -/
def execHdr (s : State) : Result :=
  if s.shortPacket then .next (s.clearHeader.setEmitCnt 0 |>.raise .shortPacket)
  else andThen s.readStartLine fun l => .next ((s.setHeader l).setEmitCnt 0 |>.raise .ok)

end Sys2Proof.Machine
end

