-- ==== Sys2Proof/Machine/Render.lean ====
section
/-!
DEFINITION. The meaning of RND (spec/43_render.md rule R147).
-/

namespace Sys2Proof.Machine

/-- RND (R147). -/
def execRnd (s : State) : Result :=
  if s.lineOk = false then .next (s.setEmitCnt 0 |>.raise .notReady)
  else andThen s.renderLine fun t => .next (t.setEmitCnt 1 |>.raise .ok)

end Sys2Proof.Machine
end

