-- ==== Sys2Proof/Machine/Select.lean ====
section
/-!
DEFINITION. The meaning of SEL (spec/41_select.md rule R121).
-/

namespace Sys2Proof.Machine

/-- SEL (R121). -/
def execSel (target : LineNo) (s : State) : Result :=
  if s.hdrOk = false then .next (s.clearSelection.setEmitCnt 0 |>.raise .notReady)
  else if targetInPacket s.startLine target then
    .next ((s.setSelection (selectedIdx s.startLine target)).setEmitCnt 0 |>.raise .ok)
  else .next (s.clearSelection.setEmitCnt 0 |>.raise .noMatch)

end Sys2Proof.Machine
end

