-- ==== Sys2Proof/Machine/Unpack.lean ====
section
/-!
DEFINITION. The meaning of PXL (spec/42_unpack.md rule R132).
-/

namespace Sys2Proof.Machine

/-- PXL (R132): the completeness test is made once, before any lane writes (R133). -/
def execPxl (idx : LineIdx) (s : State) : Result :=
  if s.shortPacket then .next (s.clearLine.setEmitCnt 0 |>.raise .shortPacket)
  else if s.hasSegment idx.toNat then
    andThen (s.readSegment idx.toNat) fun l => .next ((s.setLine l).setEmitCnt 0 |>.raise .ok)
  else .next (s.clearLine.setEmitCnt 0 |>.raise .insufficientData)

end Sys2Proof.Machine
end

