-- ==== Sys2Proof/Machine/Dispatch.lean ====
section
/-!
DEFINITION. The instruction dispatch: one arm per constructor of Instr (spec/30_encoding.md rule R87).
-/

namespace Sys2Proof.Machine

def exec (i : Instr) (s : State) : Host.Outcome State Fault Refusal :=
  match i with
  | .hdr => Sys2Proof.Machine.execHdr s
  | .sel target => Sys2Proof.Machine.execSel target s
  | .pxl idx => Sys2Proof.Machine.execPxl idx s
  | .rnd => Sys2Proof.Machine.execRnd s
  | .live target => Sys2Proof.Machine.execLive target s
  | .rply => Sys2Proof.Machine.execRply s
  | .mon => Sys2Proof.Machine.execMon s

end Sys2Proof.Machine
end

