-- ==== Sys2Proof/Machine/Ports.lean ====
section
/-!
DEFINITION. The transactions that are not legal commands: packet load, register read, output drain, reset
(spec/10_state.md rules R28, R29, R33, R35, R37), an illegal command word (spec/30_encoding.md rule R88), and the idle block
(spec/60_exceptions.md rule R184).
-/

namespace Sys2Proof.Machine

/-- Clears every result register (R31, row "packet load"; R33). -/
def clearResults (s : State) : State :=
  (s.clearHeader.clearSelection.clearLine.setEmitCnt 0).raise .ok

/-- What a load leaves (R33): the bytes from offset 0, the length, cleared results; bytes above the length keep what they held. -/
def loaded (p : List Byte) (s : State) : State :=
  clearResults { s with pkt := s.pkt.writeBytes 0 p, pktLen := BitVec.ofNat 12 p.length }

/-- Packet load (R33). A packet of more than 2048 bytes cannot be loaded (log 8). -/
def loadPacket (p : List Byte) (s : State) : Result :=
  if p.length ≤ Config.rxBufSize then .next (loaded p s) else .refused (.packetTooLong p.length)

/-- An illegal command (R88, R176): `CODE <- 5`, `EMIT_CNT <- 0`, nothing else. -/
def illegalCommand (s : State) : Result := .next (s.setEmitCnt 0 |>.raise .illegalCmd)

/-- Gives the host an answer. -/
def State.give (a : Answer) (s : State) : State := { s with answer := a }

/-- The read port's answer for an element of `LINE_BUF` while `LINE_OK = 0`: no defined value, so a free one (R26, R28, U8; log 6). -/
def giveUndefined (s : State) : State :=
  { s.give (.element (Config.undefinedElement s.freeCount)) with freeCount := s.freeCount + 1 }

/-- Register 4, `LINE_BUF[k]`, defined only when `LINE_OK = 1` (R28). -/
def readElement (k : Nat) (s : State) : Result :=
  if s.params.pixelsPerLine ≤ k then .fault (.noSuchElement k)
  else if s.lineOk = false then .next (giveUndefined s)
  else andThen s.readLine fun l =>
    match l[k]? with
    | some c => .next (s.give (.element c))
    | none => .fault (.noSuchElement k)

/-- The register read port (R28): no side effect on any register (R59). A number other than 0 to 4 names no register (log 7). -/
def readRegister (number k : Nat) (s : State) : Result :=
  match number with
  | 0 => .next (s.give (.status s.status))
  | 1 => .next (s.give (.startLine s.startLine))
  | 2 => .next (s.give (.selIdx s.selIdx))
  | 3 => .next (s.give (.pktLen s.pktLen))
  | 4 => readElement k s
  | _ => .fault (.noSuchRegister number)

/-- Output drain: the oldest record, if any, leaves `OUT` (R29, R35). -/
def drainRecord (s : State) : Result :=
  match s.out with
  | [] => .next (s.give .empty)
  | r :: rest => .next ({ s with out := rest }.give (.record r))

/-- Reset (R37, R195): every register at its reset value, `OUT` emptied, `PKT` without a readable byte; the parameters are not
affected, and the host's later transactions and the free values' counter are no state of the block (log 5). -/
def resetBlock (s : State) : Result :=
  .next { State.reset with params := s.params, inbox := s.inbox, freeCount := s.freeCount }

/-- Between transactions the block is idle and keeps all state (R184, R206; log 2). -/
def idle (s : State) : Result := .next s

/-- Takes the oldest transaction off the inbox: what the step does before it serves one (R35, R62; log 2, log 3). -/
def State.take (rest : List Transaction) (s : State) : State := { s with inbox := rest, answer := .nothing }

/-- Puts a transaction in front of all others in the inbox. -/
def State.present (t : Transaction) (s : State) : State := { s with inbox := t :: s.inbox }

end Sys2Proof.Machine
end

