-- ==== Sys2Proof/Machine/Command.lean ====
section
/-!
DEFINITION. Serving one transaction (spec/10_state.md rule R35): command decode comes first (spec/60_exceptions.md rule R179), then
the operation or the illegal command's effect; the other ports.
-/

namespace Sys2Proof.Machine

/-- The command port (R35, R88): the operation the word stands for, or `ILLEGAL_CMD`. -/
def runCommand (w : CmdWord) (s : State) : Result :=
  match decode w with
  | .ok i => exec i s
  | .error _ => illegalCommand s

/-- One transaction, executed to completion (R35, R62). -/
def serve (t : Transaction) (s : State) : Result :=
  match t with
  | .load p => loadPacket p s
  | .command w => runCommand w s
  | .readReg number k => readRegister number k s
  | .drain => drainRecord s
  | .reset => resetBlock s

end Sys2Proof.Machine
end

