-- ==== Sys2Proof/Machine/Step.lean ====
section
/-!
DEFINITION. One step: the block serves the oldest transaction of the host, or is idle when there is none (spec/10_state.md rules R20,
R30, R35; spec/20_memory.md rule R62; log 2).
-/

namespace Sys2Proof.Machine

/-- One step. -/
def step (s : State) : Host.Outcome State Fault Refusal :=
  match s.inbox with
  | [] => idle s
  | t :: rest => serve t (s.take rest)

/-- `s` with a command word presented next on the command port: the machine has no program counter and fetches nothing (R30), so
"where the next instruction is fetched" is the front of the inbox (log 2, log 10). -/
def State.withFetchWord (s : State) (nbits w : Nat) : State := s.present (.command (tableWord nbits w))

end Sys2Proof.Machine
end

