-- ==== Sys2Proof/Machine/Assembler.lean ====
section
/-!
DEFINITION. The assembler syntax (spec/30_encoding.md rules R90 and R91): one command a line, a mnemonic and its operand in decimal or
`0x` hexadecimal; the host's directives with a leading dot; a comment from `--` to the end of the line. What R90 leaves unsaid (how
the bytes of `.load` and the register of `.read` are written) is the model's choice (log 19).
-/

namespace Sys2Proof.Machine

/-- One line of text. -/
abbrev Text := List Char

/-- A command line, split into its mnemonic and its operand's value, if it has one (R90). -/
structure AsmLine where
  mnemonic : Text
  operand  : Option Nat
  deriving DecidableEq, Repr

/-- The instruction a line stands for: the mnemonics of R87 and the pseudo-instruction of R91, each with exactly the operands of
R87, the operand in the range of its field (R84). -/
def assemble (l : AsmLine) : Option Instr :=
  match l.operand with
  | none =>
    if l.mnemonic = ['H', 'D', 'R'] then some .hdr
    else if l.mnemonic = ['R', 'N', 'D'] then some .rnd
    else if l.mnemonic = ['R', 'P', 'L', 'Y'] then some .rply
    else if l.mnemonic = ['M', 'O', 'N'] then some .mon
    else none
  | some n =>
    if l.mnemonic = ['S', 'E', 'L'] then (if n < 2 ^ 15 then some (.sel (BitVec.ofNat 15 n)) else none)
    else if l.mnemonic = ['P', 'X', 'L'] then (if n < 2 ^ 2 then some (.pxl (BitVec.ofNat 2 n)) else none)
    else if l.mnemonic = ['L', 'I', 'V', 'E'] then (if n < 2 ^ 15 then some (.live (BitVec.ofNat 15 n)) else none)
    else none

/-- The line of an instruction (R90). -/
def asmLine : Instr → AsmLine
  | .hdr => ⟨['H', 'D', 'R'], none⟩
  | .sel t => ⟨['S', 'E', 'L'], some t.toNat⟩
  | .pxl i => ⟨['P', 'X', 'L'], some i.toNat⟩
  | .rnd => ⟨['R', 'N', 'D'], none⟩
  | .live t => ⟨['L', 'I', 'V', 'E'], some t.toNat⟩
  | .rply => ⟨['R', 'P', 'L', 'Y'], none⟩
  | .mon => ⟨['M', 'O', 'N'], none⟩

/-- The transaction an assembled line makes on the command port (R35, R90). -/
def assembleCommand (l : AsmLine) : Option Transaction := (assemble l).map fun i => .command (encode i)

/-- The line up to its comment (R90: `--` to the end of the line). -/
def stripComment : Text → Text
  | [] => []
  | c :: cs =>
    if c = '-' ∧ cs.head? = some '-' then [] else c :: stripComment cs

/-- The words of a line, parted by blanks; `word` is what has been read of the present one. -/
def wordsFrom (word : Text) : Text → List Text
  | [] => if word = [] then [] else [word]
  | c :: cs =>
    if c = ' ' ∨ c = '\t' then (if word = [] then wordsFrom [] cs else word :: wordsFrom [] cs)
    else wordsFrom (word ++ [c]) cs

/-- The value of a digit below `base`, in either case of letter. -/
def digitValue (base : Nat) (c : Char) : Option Nat :=
  let n := c.toNat
  let v := if 48 ≤ n ∧ n ≤ 57 then n - 48 else if 65 ≤ n ∧ n ≤ 70 then n - 55 else if 97 ≤ n ∧ n ≤ 102 then n - 87 else base
  if v < base then some v else none

/-- The digits of a number, most significant first, after `acc`. -/
def numberFrom (base acc : Nat) : Text → Option Nat
  | [] => some acc
  | c :: cs =>
    match digitValue base c with
    | some d => numberFrom base (acc * base + d) cs
    | none => none

/-- A number in decimal, or in hexadecimal after `0x` (R90). -/
def readNumber (w : Text) : Option Nat :=
  if w.take 2 = ['0', 'x'] then (if w.drop 2 = [] then none else numberFrom 16 0 (w.drop 2))
  else if w = [] then none
  else numberFrom 10 0 w

/-- The bytes of a `.load` (log 19). -/
def readBytes : List Text → Option (List Byte)
  | [] => some []
  | w :: ws =>
    match readNumber w, readBytes ws with
    | some n, some bs => if n < 256 then some (BitVec.ofNat 8 n :: bs) else none
    | _, _ => none

/-- The register of a `.read`: its name in R28's port; an element of `LINE_BUF` with its index after the name (log 19). -/
def readPortName : List Text → Option Transaction
  | [w] =>
    if w = ['S', 'T', 'A', 'T', 'U', 'S'] then some (.readReg 0 0)
    else if w = ['S', 'T', 'A', 'R', 'T', '_', 'L', 'I', 'N', 'E'] then some (.readReg 1 0)
    else if w = ['S', 'E', 'L', '_', 'I', 'D', 'X'] then some (.readReg 2 0)
    else if w = ['P', 'K', 'T', '_', 'L', 'E', 'N'] then some (.readReg 3 0)
    else none
  | [w, k] => if w = ['L', 'I', 'N', 'E', '_', 'B', 'U', 'F'] then (readNumber k).map fun n => .readReg 4 n else none
  | _ => none

/-- The transaction the words of a line make: a directive, or a command with its operand if it has one (R90). -/
def readWords : List Text → Option Transaction
  | [] => none
  | w :: ws =>
    if w = ['.', 'r', 'e', 's', 'e', 't'] then (if ws = [] then some .reset else none)
    else if w = ['.', 'd', 'r', 'a', 'i', 'n'] then (if ws = [] then some .drain else none)
    else if w = ['.', 'r', 'e', 'a', 'd'] then readPortName ws
    else if w = ['.', 'l', 'o', 'a', 'd'] then (readBytes ws).map fun bs => .load bs
    else
      match ws with
      | [] => assembleCommand ⟨w, none⟩
      | [v] =>
        match readNumber v with
        | some n => assembleCommand ⟨w, some n⟩
        | none => none
      | _ => none

/-- The transaction a line of text makes; none for an empty line, a line that is only a comment, or one that is not R90's syntax. -/
def readText (t : Text) : Option Transaction := readWords (wordsFrom [] (stripComment t))

/-- The last `fuel` decimal digits of a number, without leading zeros. -/
def decimalFrom : Nat → Nat → Text
  | 0, _ => []
  | fuel + 1, n => (if n < 10 then [] else decimalFrom fuel (n / 10)) ++ [Char.ofNat (48 + n % 10)]

/-- The text of a command line (R90); no operand has more than five decimal digits (R84). -/
def textOf (l : AsmLine) : Text :=
  match l.operand with
  | none => l.mnemonic
  | some n => l.mnemonic ++ ' ' :: decimalFrom 5 n

end Sys2Proof.Machine
end

