-- ==== Sys2Proof/Machine/Hosts.lean ====
section
/-!
DEFINITION. The two host programs of spec/70_reset_and_hazards.md rules R207 and R208, as far as they act on the block: what the host does
with one datagram or one captured frame, over the block's own transactions. The spec gives them "so that a model of the whole tool can
be built around the block; none of it is the block's behaviour": no step calls them (log 21). Sockets, capture files, waiting and the
newline of a printed line stay outside (spec/00_scope.md rule R4).
-/

namespace Sys2Proof.Machine

/-- A host at work: the block, and the lines the host has printed, in order. -/
structure HostRun where
  block   : State
  printed : List Record
  deriving DecidableEq, Repr

/-- What a host's program answers. -/
abbrev HostResult := Host.Outcome HostRun Fault Refusal

/-- One transaction of the host, and then the rest of its program. -/
def thenDo (t : Transaction) (s : State) (k : State → HostResult) : HostResult :=
  match serve t s with
  | .next u => k u
  | .fault f => .fault f
  | .refused r => .refused r

/-- Drain `n` records and print each (R207, R208). -/
def drainAndPrint : Nat → HostRun → HostResult
  | 0, h => .next h
  | n + 1, h =>
    thenDo .drain h.block fun u =>
      match u.answer with
      | .record r => drainAndPrint n ⟨u, h.printed ++ [r]⟩
      | _ => .next ⟨u, h.printed⟩

/-- The live host on one datagram (R207): load at most 2048 bytes of it, issue `LIVE 136`, and if `EMIT_CNT = 1` drain the record and
print it. -/
def liveDatagram (d : List Byte) (h : HostRun) : HostResult :=
  thenDo (.load (d.take Config.rxBufSize)) h.block fun u =>
    thenDo (.command (encode .mon)) u fun v =>
      if v.emitCnt = 1 then drainAndPrint 1 ⟨v, h.printed⟩ else .next ⟨v, h.printed⟩

/-- One event of the live host's loop (R207): a datagram, or none within the timeout, on which nothing is done. -/
def liveEvent (d : Option (List Byte)) (h : HostRun) : HostResult :=
  match d with
  | some p => liveDatagram p h
  | none => .next h

/-- The live host's loop over its events, until the operator's interrupt (R207). -/
def liveHost : List (Option (List Byte)) → HostRun → HostResult
  | [], h => .next h
  | d :: ds, h =>
    match liveEvent d h with
    | .next g => liveHost ds g
    | .fault f => .fault f
    | .refused r => .refused r

/-- The replay host on one captured frame (R208): a frame that is not UDP over IP has no payload and is skipped; so is a payload
shorter than 12 bytes; otherwise load it, cut to 2048 bytes, issue `RPLY`, and drain and print the `EMIT_CNT` records. -/
def replayFrame (payload : Option (List Byte)) (h : HostRun) : HostResult :=
  match payload with
  | none => .next h
  | some p =>
    if p.length < Config.headerSize then .next h
    else
      thenDo (.load (p.take Config.rxBufSize)) h.block fun u =>
        thenDo (.command (encode .rply)) u fun v => drainAndPrint v.emitCnt.toNat ⟨v, h.printed⟩

/-- The replay host's loop over the frames of a capture, in capture order; the operator's "advance" between two frames is a wait in
which the block is idle (R208). -/
def replayHost : List (Option (List Byte)) → HostRun → HostResult
  | [], h => .next h
  | p :: ps, h =>
    match replayFrame p h with
    | .next g => replayHost ps g
    | .fault f => .fault f
    | .refused r => .refused r

end Sys2Proof.Machine
end

