-- ==== Sys2Proof/Machine/Functions.lean ====
section
/-!
DEFINITION. The function level (spec/00_scope.md rules R5 and R14): the source's pure functions as spec/40_header.md rule R110,
spec/41_select.md rule R120, spec/42_unpack.md rules R130 and R131 and spec/43_render.md rule R146 write them, over byte sequences and
with no state; and the construction of a packet (spec/30_encoding.md rule R92). No meaning of an operation calls these: that the
operations agree with them is a statement.
-/

namespace Sys2Proof.Machine

/-- `F_decodeHeader(p)`: `(p[4] | p[5]<<8) & 0x7FFF`, or `fail` for fewer than 12 bytes (R110). -/
def fDecodeHeader (p : List Byte) : Option LineNo :=
  if p.length < 12 then none
  else
    match p[4]?, p[5]? with
    | some lo, some hi => some (((lo.setWidth 16 ||| hi.setWidth 16 <<< 8) &&& Config.lineMask).setWidth 15)
    | _, _ => none

/-- `F_selectLine(s, t)`: `t - s`, which is 0 to 3, when `s <= t < s + 4`, or `nomatch`, on integers (R120). -/
def fSelectLine (s t : Nat) : Option LineIdx :=
  if s ≤ t ∧ t < s + 4 then some (BitVec.ofNat 2 (t - s)) else none

/-- `F_split(b)`: `(b >> 4, b & 0xF)`, left pixel then right pixel (R130). -/
def fSplit (b : Byte) : ColorIndex × ColorIndex :=
  ((b >>> 4).setWidth 4, (b &&& 0xF).setWidth 4)

/-- The inverse of `F_split`: `(left << 4) | right` (R130). -/
def fJoin (left right : ColorIndex) : Byte := (left.setWidth 8 <<< 4) ||| right.setWidth 8

/-- `F_decodePixelLine(q, i)`: the line of the `BPL` bytes from `i * BPL`, or `InsufficientData` (R131). An index outside 0 to 3 is
outside the function's domain and is refused (93_implementation_defined.md U14): the index's type leaves no way to write one (log 22). -/
def fDecodePixelLine (bpl : Nat) (q : List Byte) (i : LineIdx) : Option (List ColorIndex) :=
  let start := i.toNat * bpl
  let stop := start + bpl
  if stop > q.length then none
  else some (((q.drop start).take bpl).flatMap fun b => [(fSplit b).1, (fSplit b).2])

/-- `F_render(c)` (R146). -/
def fRender (p : Config.Params) (c : List ColorIndex) : Record := c.map p.glyph

/-- PixelPayload: the bytes of a packet from offset 12 to its end (R82). -/
def pixelPayload (p : List Byte) : List Byte := p.drop 12

/-- The number of complete lines of a packet of `n >= 12` bytes: `min(4, PIXLEN div BPL)` (R135). -/
def completeLines (bpl n : Nat) : Nat := min 4 ((n - 12) / bpl)

/-- The line a live driver shows of a datagram, if any, on the function level alone: decode the header, select, decode the selected
line, render it (the source's control flow, spec/44_composite.md; R207). -/
def fLive (p : Config.Params) (target : Nat) (packet : List Byte) : Option Record :=
  match fDecodeHeader packet with
  | none => none
  | some s =>
    match fSelectLine s.toNat target with
    | none => none
    | some i => (fDecodePixelLine p.bpl (pixelPayload packet) i).map (fRender p)

/-- The lines a replay driver shows of a payload: every line that decodes, in index order (R156, R208). -/
def fReplay (p : Config.Params) (packet : List Byte) : List Record :=
  match fDecodeHeader packet with
  | none => []
  | some _ => ([0, 1, 2, 3].filterMap (fDecodePixelLine p.bpl (pixelPayload packet))).map (fRender p)

/-- Colour indices packed two to a byte, `byte(j) = (c[2j] << 4) | c[2j+1]` (R92, R134). -/
def packLine : List ColorIndex → List Byte
  | left :: right :: cs => fJoin left right :: packLine cs
  | [_] => []
  | [] => []

/-- A packet with start line `s` and the given pixel payload (R92): bytes 0 to 3 are `rsv0`, byte 4 is `s & 0xFF`, byte 5 is
`s >> 8` with bit 7 equal to `top`, bytes 6 to 11 are `rsv1`. -/
def buildPacket (rsv0 : Vector Byte 4) (s : LineNo) (top : Bool) (rsv1 : Vector Byte 6) (payload : List Byte) : List Byte :=
  rsv0.toList ++ [s.setWidth 8, (s >>> 8).setWidth 8 ||| (if top then 0x80 else 0)] ++ rsv1.toList ++ payload

end Sys2Proof.Machine
end

