-- ==== Sys2Proof/Safety.lean ====
section
/-!
DEFINITION. What counts as a safe machine: the packet a state holds, the invariant of spec/10_state.md rule R32 clause by clause, the
duties of the host (spec/70_reset_and_hazards.md rule R205), and how two states or two packets compare.
-/

namespace Sys2Proof.Machine

/-- The state `t` of an answer `next t`. -/
def nextOf : Result → Option State
  | .next t => some t
  | .fault _ => none
  | .refused _ => none

/-- The packet loaded in `s` is `p`: `PKT_LEN` is its length and `PKT[0 .. PKT_LEN-1]` are its bytes (R23). -/
def State.HoldsPacket (s : State) (p : List Byte) : Prop :=
  s.pktLen.toNat = p.length ∧ ∀ a, a < p.length → s.pkt.read a = p[a]?

/-- The buffer part of the invariant: `PKT_LEN` is at most 2048 (R23), `PKT` is in canonical form, and every byte below `PKT_LEN`
has a value (R33). -/
def State.BufferOk (s : State) : Prop :=
  s.pktLen.toNat ≤ Config.rxBufSize ∧ s.pkt.wf = true ∧ ∃ p, s.HoldsPacket p

/-- R32 (a): `HDR_OK = 0` implies `START_LINE = 0`. -/
def State.HeaderCleared (s : State) : Prop := s.hdrOk = false → s.startLine = 0

/-- R32 (b): `MATCH = 0` implies `SEL_IDX = 0`. -/
def State.SelectionCleared (s : State) : Prop := s.matched = false → s.selIdx = 0

/-- R32 (c): `LINE_OK = 0` exactly when `LINE_BUF` is `INVALID`. -/
def State.LineCleared (s : State) : Prop := s.lineOk = false ↔ s.lineBuf = none

/-- R32 (d): `MATCH = 1` implies `HDR_OK = 1`. -/
def State.MatchNeedsHeader (s : State) : Prop := s.matched = true → s.hdrOk = true

/-- R32 (e): `HDR_OK = 1` implies `PKT_LEN >= 12` and `START_LINE = ((PKT[5] << 8) | PKT[4]) & 0x7FFF`, which is the header
extractor of the packet now in `PKT` (R24). -/
def State.HeaderCurrent (s : State) : Prop :=
  s.hdrOk = true → 12 ≤ s.pktLen.toNat ∧
    ∃ b4 b5, s.pkt.read 4 = some b4 ∧ s.pkt.read 5 = some b5 ∧
      s.startLine.toNat = (b5.toNat * 256 + b4.toNat) % 32768

/-- R32 (f): `LINE_OK = 1` implies that for some `i` in 0 to 3 segment `i` is complete and `LINE_BUF` is its decode. -/
def State.LineCurrent (s : State) : Prop :=
  s.lineOk = true → ∃ i l, i < 4 ∧ 12 + (i + 1) * s.params.bpl ≤ s.pktLen.toNat ∧
    s.lineBuf = some l ∧ l.length = 2 * s.params.bpl ∧
    ∀ j, j < s.params.bpl → ∃ b, s.pkt.read (12 + i * s.params.bpl + j) = some b ∧
      l[2 * j]? = some (fSplit b).1 ∧ l[2 * j + 1]? = some (fSplit b).2

/-- R32 (g): `EMIT_CNT <= 4` and `CODE <= 5`. -/
def State.OutcomeInRange (s : State) : Prop := s.emitCnt.toNat ≤ 4 ∧ s.code.toNat ≤ 5

/-- R29, R148: every record of `OUT` has exactly `2 * BPL` glyphs. -/
def State.RecordsWhole (s : State) : Prop := ∀ r ∈ s.out, r.length = 2 * s.params.bpl

/-- The invariant: the parameters are admitted ones (R7, R8, R9), the buffer is in order, R32 (a) to (g) hold, and every record in
`OUT` is whole. -/
structure State.Inv (s : State) : Prop where
  paramsOk         : s.params.wf = true
  bufferOk         : s.BufferOk
  headerCleared    : s.HeaderCleared
  selectionCleared : s.SelectionCleared
  lineCleared      : s.LineCleared
  matchNeedsHeader : s.MatchNeedsHeader
  headerCurrent    : s.HeaderCurrent
  lineCurrent      : s.LineCurrent
  outcomeInRange   : s.OutcomeInRange
  recordsWhole     : s.RecordsWhole

/-- A transaction that keeps the host's duties (R205): a load is cut to 2048 bytes, a read names a register of R28 and, for
`LINE_BUF`, one of its `2 * BPL` elements. Every command word, legal or not, is permitted. -/
def Transaction.permitted (p : Config.Params) : Transaction → Bool
  | .load packet => packet.length ≤ Config.rxBufSize
  | .command _ => true
  | .readReg number k => number < 4 || (number == 4 && k < p.pixelsPerLine)
  | .drain => true
  | .reset => true

/-- The host keeps its duties in everything it has still to ask. -/
def State.HostPermitted (s : State) : Prop := ∀ t ∈ s.inbox, t.permitted s.params = true

/-- The registers that describe the packet now loaded, and the outcome of the last operation: all of R22 but `PKT`, `PKT_LEN` and
`OUT`. -/
structure Results where
  startLine : LineNo
  hdrOk     : Bool
  selIdx    : LineIdx
  matched   : Bool
  lineBuf   : Option (List ColorIndex)
  lineOk    : Bool
  emitCnt   : BitVec 3
  code      : BitVec 3
  deriving DecidableEq, Repr

/-- The result registers of a state. -/
def State.results (s : State) : Results where
  startLine := s.startLine
  hdrOk     := s.hdrOk
  selIdx    := s.selIdx
  matched   := s.matched
  lineBuf   := s.lineBuf
  lineOk    := s.lineOk
  emitCnt   := s.emitCnt
  code      := s.code

/-- Two packets that differ only in the bytes and the bit no rule interprets: header bytes 0 to 3 and 6 to 11, and bit 7 of byte 5
(R81, R83). -/
def SameButReserved (p q : List Byte) : Prop :=
  p.length = q.length ∧ p[4]? = q[4]? ∧
    (p[5]?.map fun b => b &&& 0x7F) = (q[5]?.map fun b => b &&& 0x7F) ∧ p.drop 12 = q.drop 12

/-- The codes of LIVE on a packet and their causes, in the order tested (R170, R179). -/
def liveCause (bpl : Nat) (p : List Byte) (target : LineNo) (code : BitVec 3) : Prop :=
  (code = 1 ∧ p.length < 12) ∨
  ∃ l, fDecodeHeader p = some l ∧
    ((code = 2 ∧ fSelectLine l.toNat target.toNat = none) ∨
     ∃ k, fSelectLine l.toNat target.toNat = some k ∧
      ((code = 3 ∧ fDecodePixelLine bpl (pixelPayload p) k = none) ∨
       (code = 0 ∧ (fDecodePixelLine bpl (pixelPayload p) k).isSome = true)))

/-- The codes of each operation on a state that holds a packet, and the cause of each (R170, R179). -/
def codeCause (s : State) (p : List Byte) (i : Instr) (code : BitVec 3) : Prop :=
  match i with
  | .hdr => (code = 1 ∧ p.length < 12) ∨ (code = 0 ∧ 12 ≤ p.length)
  | .sel g =>
    (code = 4 ∧ s.hdrOk = false) ∨
    (code = 2 ∧ s.hdrOk = true ∧ fSelectLine s.startLine.toNat g.toNat = none) ∨
    (code = 0 ∧ s.hdrOk = true ∧ (fSelectLine s.startLine.toNat g.toNat).isSome = true)
  | .pxl k =>
    (code = 1 ∧ p.length < 12) ∨
    (code = 3 ∧ 12 ≤ p.length ∧ fDecodePixelLine s.params.bpl (pixelPayload p) k = none) ∨
    (code = 0 ∧ 12 ≤ p.length ∧ (fDecodePixelLine s.params.bpl (pixelPayload p) k).isSome = true)
  | .rnd => (code = 4 ∧ s.lineOk = false) ∨ (code = 0 ∧ s.lineOk = true)
  | .live g => liveCause s.params.bpl p g code
  | .rply =>
    (code = 1 ∧ p.length < 12) ∨
    (code = 3 ∧ 12 ≤ p.length ∧ ∃ k, fDecodePixelLine s.params.bpl (pixelPayload p) k = none) ∨
    (code = 0 ∧ 12 ≤ p.length ∧ ∀ k, (fDecodePixelLine s.params.bpl (pixelPayload p) k).isSome = true)
  | .mon => liveCause s.params.bpl p 136 code

/-- Command words, legal or not, one after the other, the host doing nothing else between them: the answer of the first that stops,
or the last state. -/
def runCommands : List CmdWord → State → Result
  | [], s => .next s
  | w :: ws, s =>
    match runCommand w s with
    | .next t => runCommands ws t
    | .fault f => .fault f
    | .refused r => .refused r

/-- The host reads a flag after an operation and goes on only when it is 1 (R157). -/
def hostIf (flag : State → Bool) (goOn : State → Result) (r : Result) : Result :=
  match r with
  | .next s => if flag s then goOn s else .next s
  | .fault f => .fault f
  | .refused e => .refused e

/-- R157's sequence for LIVE: `HDR`; if `HDR_OK` then `SEL t`; if `MATCH` then `PXL SEL_IDX`; if `LINE_OK` then `RND`, stopping at the
first flag that is 0. -/
def livePrimitives (t : LineNo) (s : State) : Result :=
  hostIf State.hdrOk (fun a => hostIf State.matched (fun b => hostIf State.lineOk (exec .rnd) (exec (.pxl b.selIdx) b))
    (exec (.sel t) a)) (exec .hdr s)

/-- R157's lines for RPLY: for each index, `PXL i`; if `LINE_OK` then `RND`. -/
def linePrimitives : List LineIdx → State → Result
  | [], s => .next s
  | i :: is, s =>
    match hostIf State.lineOk (exec .rnd) (exec (.pxl i) s) with
    | .next t => linePrimitives is t
    | .fault f => .fault f
    | .refused e => .refused e

/-- R157's sequence for RPLY: `HDR`; if `HDR_OK` then for `i` = 0, 1, 2, 3: `PXL i`; if `LINE_OK` then `RND`. -/
def replayPrimitives (s : State) : Result :=
  hostIf State.hdrOk (linePrimitives [0, 1, 2, 3]) (exec .hdr s)

end Sys2Proof.Machine
end

