-- ==== Sys2Proof/Certificates/Slice0/Obligations.lean ====
section
/-!
DEFINITION. The statements for the provers. Each docstring names the rule of spec/ the statement formalises. A statement about every
state is a statement about every `BPL` and every `PALETTE` (spec/00_scope.md rules R7 and R8), which a state carries (log 1).
-/

open Sys2Proof Sys2Proof.Machine

/-! ## Encoding -/

/-- R84, R86, R87: the word of a well-formed instruction decodes to it, with every operand at every value. -/
def Obligations.DecodeOfEncodeIsTheInstruction : Prop :=
  ∀ i : Instr, i.wellFormed = true → decode (encode i) = .ok i

/-- R87, R88: a word that decodes is the word of the instruction it decodes to, and that instruction is well formed, so every legal word
has one meaning and every instruction one word. -/
def Obligations.EncodeOfDecodeIsTheWord : Prop :=
  ∀ (w : CmdWord) (i : Instr), decode w = .ok i → i.wellFormed = true ∧ encode i = w

/-- R87: the words of the six operations as numbers, each decoding to its operation. -/
def Obligations.OpcodeMapNumbers : Prop :=
  decode 0x00000 = .ok .hdr ∧
  (∀ t : LineNo, decode (BitVec.ofNat 20 (0x20000 + t.toNat)) = .ok (.sel t)) ∧
  (∀ i : LineIdx, decode (BitVec.ofNat 20 (0x40000 + i.toNat * 0x8000)) = .ok (.pxl i)) ∧
  decode 0x60000 = .ok .rnd ∧
  (∀ t : LineNo, decode (BitVec.ofNat 20 (0x80000 + t.toNat)) = .ok (.live t)) ∧
  decode 0xA0000 = .ok .rply

/-- R88: a word is illegal exactly when `op` is 110 or 111, or when a field its operation does not use is not zero (`op`, `idx` and
`target` taken as numbers from the word's bits 19:17, 16:15 and 14:0). -/
def Obligations.IllegalWordsAreExactlyThese : Prop :=
  ∀ w : CmdWord,
    (∃ e, decode w = .error e) ↔
      let op := w.toNat / 131072
      let idx := w.toNat / 32768 % 4
      let target := w.toNat % 32768
      op = 6 ∨ op = 7 ∨
        (idx ≠ 0 ∧ (op = 0 ∨ op = 1 ∨ op = 3 ∨ op = 4 ∨ op = 5)) ∨
        (target ≠ 0 ∧ (op = 0 ∨ op = 2 ∨ op = 3 ∨ op = 5))

/-- R88: of the 2^20 words, 65543 are legal. -/
def Obligations.LegalWordCount : Prop :=
  ((List.range (2 ^ 20)).filter fun n => (decode (BitVec.ofNat 20 n)).toOption.isSome).length = 65543

/-- R87 and spec/opcode_table.json: a word decodes to an instruction exactly when it matches the row of that instruction's mnemonic,
and it matches at most one row. -/
def Obligations.DecodeFollowsTheOpcodeTable : Prop :=
  ∀ w : CmdWord,
    (∀ i, decode w = .ok i → ∃ r ∈ opcodeRows, r.mnemonic = mnemonicOf i ∧ r.holds w = true) ∧
    (∀ r ∈ opcodeRows, r.holds w = true → ∃ i, decode w = .ok i ∧ mnemonicOf i = r.mnemonic) ∧
    (∀ r ∈ opcodeRows, ∀ r' ∈ opcodeRows, r.holds w = true → r'.holds w = true → r = r')

/-- R91: there is one pseudo-instruction, `MON`; it expands to `LIVE 136`, its word is `0x80088`, which decodes to `LIVE 136`, and it
does what `LIVE 136` does. -/
def Obligations.MonIsLive136 : Prop :=
  (∀ i : Instr, i.expand ≠ i ↔ i = .mon) ∧ Instr.expand .mon = .live 136 ∧
  encode .mon = 0x80088 ∧ decode 0x80088 = .ok (.live 136) ∧
  ∀ s : State, exec .mon s = exec (.live 136) s

/-- Command words written out bit by bit from R87's patterns, one of each operation and three illegal ones (spec/95_test_vectors.md
V-CMD-1, 2, 6, 8, 9, 11, 12, 14, 17). The spec says of the last three only that they are illegal: the names and payloads of the
decoder's errors are the model's choice (log 18). -/
def Obligations.SampleWordsDecode : Prop :=
  decode 0b00000000000000000000 = .ok .hdr ∧
  decode 0b00100000000010001000 = .ok (.sel 136) ∧
  decode 0b01010000000000000000 = .ok (.pxl 2) ∧
  decode 0b01100000000000000000 = .ok .rnd ∧
  decode 0b10000000000010001000 = .ok (.live 136) ∧
  decode 0b10100000000000000000 = .ok .rply ∧
  decode 0b11000000000000000000 = .error (.reservedOp 6) ∧
  decode 0b00000000000000000001 = .error (.unusedTarget 1) ∧
  decode 0b01000000000000000001 = .error (.unusedTarget 1)

/-- R90, R91: the assembler's line of an instruction assembles to it, and a line that assembles is the line of its instruction. -/
def Obligations.AssemblerRoundTrip : Prop :=
  (∀ i : Instr, assemble (asmLine i) = some i) ∧
  ∀ (l : AsmLine) (i : Instr), assemble l = some i → asmLine i = l

/-- R90, R91, R84: the text of every instruction, its operand in decimal, is read back as the command of that instruction's word. -/
def Obligations.TextRoundTrip : Prop :=
  ∀ i : Instr, readText (textOf (asmLine i)) = some (.command (encode i))

/-! ## The step and the host's transactions -/

/-- R30, R35: a step that serves a legal command word is the meaning of the decoded instruction, on the state whose inbox has lost
that command and whose last answer to the host is cleared (log 2, log 3); `withFetchWord` presents exactly that word. -/
def Obligations.StepRunsTheDecodedCommand : Prop :=
  (∀ (s : State) (w : CmdWord) (rest : List Transaction) (i : Instr),
    s.inbox = .command w :: rest → decode w = .ok i →
      step s = exec i { s with inbox := rest, answer := .nothing }) ∧
  ∀ (s : State) (nbits w : Nat) (i : Instr), decodeTableWord nbits w = some i →
    step (s.withFetchWord nbits w) = exec i { s with answer := .nothing }

/-- R176: an illegal command word writes `CODE <- 5` and `EMIT_CNT <- 0` and nothing else of the block (the model's own `inbox` and
`answer` move on as for every transaction, log 2, log 3). -/
def Obligations.IllegalCommandOnlySetsCode : Prop :=
  ∀ (s : State) (w : CmdWord) (rest : List Transaction) (e : DecodeError),
    s.inbox = .command w :: rest → decode w = .error e →
      step s = .next { s with inbox := rest, answer := .nothing, code := 5, emitCnt := 0 }

/-- R184, and the model's choice (log 2): with no transaction to serve the block is idle and keeps all state. -/
def Obligations.IdleKeepsAllState : Prop :=
  ∀ s : State, s.inbox = [] → step s = .next s

/-- R33: a load of 0 to 2048 bytes stores them from offset 0, sets `PKT_LEN`, clears every result register, and leaves `OUT` and the
bytes from the packet's length upward as they were (the model's own `inbox` and `answer` move on as for
every transaction, log 2, log 3). -/
def Obligations.LoadStoresThePacket : Prop :=
  ∀ (s : State) (p : List Byte) (rest : List Transaction), s.inbox = .load p :: rest → p.length ≤ 2048 →
    ∃ t, step s = .next t ∧ t.HoldsPacket p ∧ (∀ a, p.length ≤ a → t.pkt.read a = s.pkt.read a) ∧
      t = { s with pkt := t.pkt, pktLen := BitVec.ofNat 12 p.length, startLine := 0, hdrOk := false, selIdx := 0,
                   matched := false, lineBuf := none, lineOk := false, emitCnt := 0, code := 0,
                   inbox := rest, answer := .nothing }

/-- R195, R37: the reset transaction puts every piece of state to its reset value: `PKT_LEN`, every result register and flag 0,
`LINE_BUF` invalid, `OUT` empty, no byte of `PKT` readable; the parameters keep their values. -/
def Obligations.ResetPutsEveryRegisterToItsValue : Prop :=
  ∀ (s : State) (rest : List Transaction), s.inbox = .reset :: rest →
    ∃ t, step s = .next t ∧ t.pktLen = 0 ∧ t.startLine = 0 ∧ t.hdrOk = false ∧ t.selIdx = 0 ∧ t.matched = false ∧
      t.lineBuf = none ∧ t.lineOk = false ∧ t.emitCnt = 0 ∧ t.code = 0 ∧ t.out = [] ∧ t.status = 0 ∧
      (∀ a, ∃ f, t.memRead a = .error f) ∧ t.params = s.params

/-- R37: the state after reset holds the values of R37's table, and an operation issued right after reset sees an empty packet: HDR,
PXL, LIVE and RPLY report `SHORT_PACKET`, SEL and RND report `NOT_READY`, and nothing is emitted. -/
def Obligations.OperationsRightAfterReset : Prop :=
  State.reset.pktLen = 0 ∧ State.reset.startLine = 0 ∧ State.reset.hdrOk = false ∧ State.reset.selIdx = 0 ∧
  State.reset.matched = false ∧ State.reset.lineBuf = none ∧ State.reset.lineOk = false ∧ State.reset.emitCnt = 0 ∧
  State.reset.code = 0 ∧ State.reset.status = 0 ∧ State.reset.out = [] ∧
  (∀ a, ∃ f, State.reset.memRead a = .error f) ∧ State.reset.params = Config.params ∧
  (exec .hdr State.reset = .next { State.reset with code := 1 }) ∧
  (∀ i, exec (.pxl i) State.reset = .next { State.reset with code := 1 }) ∧
  (∀ t, exec (.live t) State.reset = .next { State.reset with code := 1 }) ∧
  (exec .rply State.reset = .next { State.reset with code := 1 }) ∧
  (∀ t, exec (.sel t) State.reset = .next { State.reset with code := 4 }) ∧
  (exec .rnd State.reset = .next { State.reset with code := 4 })

/-- R28: the register read port: `STATUS` with `HDR_OK` in bit 0, `MATCH` in bit 1, `LINE_OK` in bit 2, `CODE` in bits 5:3 and
`EMIT_CNT` in bits 8:6; then `START_LINE`, `SEL_IDX`, `PKT_LEN`, and element `k` of `LINE_BUF` when `LINE_OK = 1`; a read changes
no register. -/
def Obligations.ReadPortShowsTheRegisters : Prop :=
  ∀ (s : State) (rest : List Transaction) (k : Nat),
    (s.inbox = .readReg 0 k :: rest → ∃ v : BitVec 9,
      step s = .next { s with inbox := rest, answer := .status v } ∧
      v.toNat = s.hdrOk.toNat + 2 * s.matched.toNat + 4 * s.lineOk.toNat + 8 * s.code.toNat + 64 * s.emitCnt.toNat) ∧
    (s.inbox = .readReg 1 k :: rest → step s = .next { s with inbox := rest, answer := .startLine s.startLine }) ∧
    (s.inbox = .readReg 2 k :: rest → step s = .next { s with inbox := rest, answer := .selIdx s.selIdx }) ∧
    (s.inbox = .readReg 3 k :: rest → step s = .next { s with inbox := rest, answer := .pktLen s.pktLen }) ∧
    (∀ l c, s.inbox = .readReg 4 k :: rest → s.lineOk = true → s.lineBuf = some l → k < 2 * s.params.bpl → l[k]? = some c →
      step s = .next { s with inbox := rest, answer := .element c })

/-- R26, R28, U8: a read of an element of `LINE_BUF` while `LINE_OK = 0` completes, answers some element (no value of it is stated) and
changes no register; the counter of the free values, the model's own field, moves on (log 6). -/
def Obligations.InvalidLineReadChangesNoRegister : Prop :=
  ∀ (s : State) (rest : List Transaction) (k : Nat), s.inbox = .readReg 4 k :: rest → s.lineOk = false → k < 2 * s.params.bpl →
    ∃ c n, step s = .next { s with inbox := rest, answer := .element c, freeCount := n }

/-- The model's choices (log 7, log 8): a register number other than 0 to 4, or an element of `LINE_BUF` beyond its last, does not exist,
and reading it stops the step; a packet of more than 2048 bytes "cannot be loaded" (R33), and the step stops. -/
def Obligations.HostMisuseStops : Prop :=
  (∀ (s : State) (rest : List Transaction) (number k : Nat), s.inbox = .readReg number k :: rest →
    (5 ≤ number → step s = .fault (.noSuchRegister number)) ∧
    (number = 4 → 2 * s.params.bpl ≤ k → step s = .fault (.noSuchElement k))) ∧
  ∀ (s : State) (p : List Byte) (rest : List Transaction), s.inbox = .load p :: rest → 2048 < p.length →
    step s = .refused (.packetTooLong p.length)

/-- R29, R35: a drain removes the oldest record, if any, gives it to the host, and changes nothing else. -/
def Obligations.DrainRemovesTheOldestRecord : Prop :=
  ∀ (s : State) (rest : List Transaction), s.inbox = .drain :: rest →
    (∀ r rs, s.out = r :: rs → step s = .next { s with inbox := rest, out := rs, answer := .record r }) ∧
    (s.out = [] → step s = .next { s with inbox := rest, answer := .empty })

/-- R8, R21, R37: no step changes a parameter, reset included. -/
def Obligations.ParametersNeverChange : Prop :=
  ∀ s t : State, step s = .next t → t.params = s.params

/-! ## The operations -/

/-- R111: HDR's word; HDR on a short packet and on one that holds a header, in terms of bytes 4 and 5; and as `F_decodeHeader` of the packet. -/
def Obligations.HdrDecodesTheStartLine : Prop :=
  encode .hdr = 0x00000 ∧
  (∀ s : State, s.pktLen.toNat < 12 →
    exec .hdr s = .next { s with startLine := 0, hdrOk := false, emitCnt := 0, code := 1 }) ∧
  (∀ (s : State) (b4 b5 : Byte), 12 ≤ s.pktLen.toNat → s.pkt.read 4 = some b4 → s.pkt.read 5 = some b5 →
    exec .hdr s = .next { s with startLine := BitVec.ofNat 15 (b5.toNat * 256 + b4.toNat), hdrOk := true,
                                 emitCnt := 0, code := 0 }) ∧
  ∀ (s : State) (p : List Byte), s.HoldsPacket p →
    (∀ l, fDecodeHeader p = some l → exec .hdr s = .next { s with startLine := l, hdrOk := true, emitCnt := 0, code := 0 }) ∧
    (fDecodeHeader p = none → exec .hdr s = .next { s with startLine := 0, hdrOk := false, emitCnt := 0, code := 1 })

/-- R121: SEL's word, and SEL on every state: not ready, match with the index within the packet, or no match. -/
def Obligations.SelFindsTheLineIndex : Prop :=
  ∀ (s : State) (t : LineNo),
    (encode (.sel t)).toNat = 0x20000 + t.toNat ∧
    (s.hdrOk = false →
      exec (.sel t) s = .next { s with selIdx := 0, matched := false, emitCnt := 0, code := 4 }) ∧
    (s.hdrOk = true → s.startLine.toNat ≤ t.toNat → t.toNat < s.startLine.toNat + 4 →
      exec (.sel t) s = .next { s with selIdx := BitVec.ofNat 2 (t.toNat - s.startLine.toNat), matched := true,
                                       emitCnt := 0, code := 0 }) ∧
    (s.hdrOk = true → ¬ (s.startLine.toNat ≤ t.toNat ∧ t.toNat < s.startLine.toNat + 4) →
      exec (.sel t) s = .next { s with selIdx := 0, matched := false, emitCnt := 0, code := 2 })

/-- R132: PXL's word; PXL on a short packet, on an incomplete segment, and on a complete one, byte by byte: byte `j` of the segment gives elements
`2j` (high nibble) and `2j + 1` (low nibble); and as `F_decodePixelLine` of the pixel payload. -/
def Obligations.PxlUnpacksOneSegment : Prop :=
  (∀ i : LineIdx, (encode (.pxl i)).toNat = 0x40000 + i.toNat * 0x8000) ∧
  (∀ (s : State) (i : LineIdx), s.pktLen.toNat < 12 →
    exec (.pxl i) s = .next { s with lineBuf := none, lineOk := false, emitCnt := 0, code := 1 }) ∧
  (∀ (s : State) (i : LineIdx), 12 ≤ s.pktLen.toNat → s.pktLen.toNat < 12 + (i.toNat * s.params.bpl + s.params.bpl) →
    exec (.pxl i) s = .next { s with lineBuf := none, lineOk := false, emitCnt := 0, code := 3 }) ∧
  (∀ (s : State) (i : LineIdx), 12 + (i.toNat * s.params.bpl + s.params.bpl) ≤ s.pktLen.toNat →
    (∀ j, j < s.params.bpl → ∃ b, s.pkt.read (12 + i.toNat * s.params.bpl + j) = some b) →
    ∃ l, exec (.pxl i) s = .next { s with lineBuf := some l, lineOk := true, emitCnt := 0, code := 0 } ∧
      l.length = 2 * s.params.bpl ∧
      ∀ j b, j < s.params.bpl → s.pkt.read (12 + i.toNat * s.params.bpl + j) = some b →
        l[2 * j]? = some (BitVec.ofNat 4 (b.toNat / 16)) ∧ l[2 * j + 1]? = some (BitVec.ofNat 4 (b.toNat % 16))) ∧
  ∀ (s : State) (p : List Byte) (i : LineIdx), s.HoldsPacket p → 12 ≤ p.length →
    (∀ l, fDecodePixelLine s.params.bpl (pixelPayload p) i = some l →
      exec (.pxl i) s = .next { s with lineBuf := some l, lineOk := true, emitCnt := 0, code := 0 }) ∧
    (fDecodePixelLine s.params.bpl (pixelPayload p) i = none →
      exec (.pxl i) s = .next { s with lineBuf := none, lineOk := false, emitCnt := 0, code := 3 })

/-- R147: RND's word; RND without a decoded line reports `NOT_READY` and emits nothing; with one it appends one record of `2 * BPL` glyphs, glyph
`k` being `PALETTE[LINE_BUF[k]]`, and keeps every register but `EMIT_CNT` and `CODE`. -/
def Obligations.RndEmitsTheLine : Prop :=
  encode .rnd = 0x60000 ∧
  (∀ s : State, s.lineOk = false → exec .rnd s = .next { s with emitCnt := 0, code := 4 }) ∧
  ∀ (s : State) (l : List ColorIndex), s.lineOk = true → s.lineBuf = some l → l.length = 2 * s.params.bpl →
    ∃ r, exec .rnd s = .next { s with out := s.out ++ [r], emitCnt := 1, code := 0 } ∧ r.length = 2 * s.params.bpl ∧
      ∀ k c, k < 2 * s.params.bpl → l[k]? = some c → r[k]? = some (s.params.palette.get c.toFin)

/-- R155: LIVE's word, and LIVE condition by condition in the order tested, and its success, in terms of the function level (R110, R120, R131, R146). -/
def Obligations.LiveRendersTheWantedLine : Prop :=
  (∀ t : LineNo, (encode (.live t)).toNat = 0x80000 + t.toNat) ∧ encode .mon = 0x80088 ∧
  ∀ (s : State) (t : LineNo) (p : List Byte), s.HoldsPacket p →
    (p.length < 12 → exec (.live t) s =
      .next { s with startLine := 0, hdrOk := false, selIdx := 0, matched := false, lineBuf := none, lineOk := false,
                     emitCnt := 0, code := 1 }) ∧
    (∀ l, fDecodeHeader p = some l → fSelectLine l.toNat t.toNat = none → exec (.live t) s =
      .next { s with startLine := l, hdrOk := true, selIdx := 0, matched := false, lineBuf := none, lineOk := false,
                     emitCnt := 0, code := 2 }) ∧
    (∀ l i, fDecodeHeader p = some l → fSelectLine l.toNat t.toNat = some i →
      fDecodePixelLine s.params.bpl (pixelPayload p) i = none → exec (.live t) s =
      .next { s with startLine := l, hdrOk := true, selIdx := i, matched := true, lineBuf := none, lineOk := false, emitCnt := 0, code := 3 }) ∧
    (∀ l i c, fDecodeHeader p = some l → fSelectLine l.toNat t.toNat = some i →
      fDecodePixelLine s.params.bpl (pixelPayload p) i = some c → exec (.live t) s =
      .next { s with startLine := l, hdrOk := true, selIdx := i, matched := true, lineBuf := some c, lineOk := true, out := s.out ++ [fRender s.params c], emitCnt := 1, code := 0 })

/-- R91, R155: MON completes on every packet, condition by condition, as LIVE does for target line 136. -/
def Obligations.MonRendersLine136 : Prop :=
  ∀ (s : State) (p : List Byte), s.HoldsPacket p →
    (p.length < 12 → exec .mon s =
      .next { s with startLine := 0, hdrOk := false, selIdx := 0, matched := false, lineBuf := none, lineOk := false,
                     emitCnt := 0, code := 1 }) ∧
    (∀ l, fDecodeHeader p = some l → ¬ (133 ≤ l.toNat ∧ l.toNat ≤ 136) → exec .mon s =
      .next { s with startLine := l, hdrOk := true, selIdx := 0, matched := false, lineBuf := none, lineOk := false,
                     emitCnt := 0, code := 2 }) ∧
    (∀ l, fDecodeHeader p = some l → 133 ≤ l.toNat → l.toNat ≤ 136 →
      fDecodePixelLine s.params.bpl (pixelPayload p) (BitVec.ofNat 2 (136 - l.toNat)) = none → exec .mon s =
      .next { s with startLine := l, hdrOk := true, selIdx := BitVec.ofNat 2 (136 - l.toNat), matched := true,
                     lineBuf := none, lineOk := false, emitCnt := 0, code := 3 }) ∧
    (∀ l c, fDecodeHeader p = some l → 133 ≤ l.toNat → l.toNat ≤ 136 →
      fDecodePixelLine s.params.bpl (pixelPayload p) (BitVec.ofNat 2 (136 - l.toNat)) = some c → exec .mon s =
      .next { s with startLine := l, hdrOk := true, selIdx := BitVec.ofNat 2 (136 - l.toNat), matched := true,
                     lineBuf := some c, lineOk := true, out := s.out ++ [fRender s.params c], emitCnt := 1, code := 0 })

/-- R156: RPLY's word; RPLY on a short packet, and on one with a header: the complete lines among 0 to 3 are rendered in index order, `EMIT_CNT`
counts them, `CODE` is 0 exactly when all four came out, and `LINE_BUF` holds line 3 or is invalid. -/
def Obligations.RplyRendersEveryCompleteLine : Prop :=
  encode .rply = 0xA0000 ∧
  ∀ (s : State) (p : List Byte), s.HoldsPacket p →
    (p.length < 12 → exec .rply s =
      .next { s with startLine := 0, hdrOk := false, selIdx := 0, matched := false, lineBuf := none, lineOk := false,
                     emitCnt := 0, code := 1 }) ∧
    (∀ l, fDecodeHeader p = some l →
      let lines := [0, 1, 2, 3].filterMap (fDecodePixelLine s.params.bpl (pixelPayload p))
      let last := fDecodePixelLine s.params.bpl (pixelPayload p) 3
      exec .rply s =
      .next { s with startLine := l, hdrOk := true, selIdx := 0, matched := false, lineBuf := last, lineOk := last.isSome,
                     out := s.out ++ lines.map (fRender s.params), emitCnt := BitVec.ofNat 3 lines.length,
                     code := if lines.length = 4 then 0 else 3 })

/-- R156 (corner cases), R135: after RPLY on a packet with a header, `EMIT_CNT` is `min(4, PIXLEN div BPL)`, that many records were
appended, and `LINE_OK = 1` exactly when it is 4. -/
def Obligations.RplyCountsTheCompleteLines : Prop :=
  ∀ (s t : State) (p : List Byte), s.HoldsPacket p → 12 ≤ p.length → 0 < s.params.bpl → exec .rply s = .next t →
    t.emitCnt.toNat = min 4 ((p.length - 12) / s.params.bpl) ∧ t.out.length = s.out.length + t.emitCnt.toNat ∧
    (t.lineOk = true ↔ t.emitCnt.toNat = 4)

/-- R172: `SHORT_PACKET`: what HDR, PXL, LIVE, MON and RPLY do when `PKT_LEN < 12`, on every state; and it is raised in no other case. -/
def Obligations.ShortPacketOutcome : Prop :=
  (∀ s : State, s.pktLen.toNat < 12 →
    (exec .hdr s = .next { s with startLine := 0, hdrOk := false, emitCnt := 0, code := 1 }) ∧
    (∀ i, exec (.pxl i) s = .next { s with lineBuf := none, lineOk := false, emitCnt := 0, code := 1 }) ∧
    ∀ i, (∃ t, i = .live t) ∨ i = .mon ∨ i = .rply →
      exec i s = .next { s with startLine := 0, hdrOk := false, selIdx := 0, matched := false, lineBuf := none,
                                lineOk := false, emitCnt := 0, code := 1 }) ∧
  ∀ (s t : State) (i : Instr), exec i s = .next t → t.code = 1 →
    s.pktLen.toNat < 12 ∧ i ≠ .rnd ∧ ∀ g, i ≠ .sel g

/-- R175: `NOT_READY` is raised by SEL when `HDR_OK = 0` (clearing `MATCH` and `SEL_IDX`) and by RND when `LINE_OK = 0` (emitting
nothing), and by no other operation and in no other case. -/
def Obligations.NotReadyExactlyWhenNoValue : Prop :=
  (∀ (s : State) (t : LineNo), s.hdrOk = false →
    exec (.sel t) s = .next { s with selIdx := 0, matched := false, emitCnt := 0, code := 4 }) ∧
  (∀ s : State, s.lineOk = false → exec .rnd s = .next { s with emitCnt := 0, code := 4 }) ∧
  ∀ (s t : State) (i : Instr), exec i s = .next t → t.code = 4 →
    (∃ target, i = .sel target ∧ s.hdrOk = false) ∨ (i = .rnd ∧ s.lineOk = false)

/-- R170, R179: the code each operation leaves and its cause, in the order tested; code 5 is left exactly by a command word that is
illegal. (`codeCause` lists the causes; no two alternatives of an operation hold together.) -/
def Obligations.CodesAndTheirCauses : Prop :=
  (∀ (s t : State) (p : List Byte) (i : Instr), s.HoldsPacket p → exec i s = .next t → codeCause s p i t.code) ∧
  ∀ (s t : State) (w : CmdWord) (rest : List Transaction), s.inbox = .command w :: rest → step s = .next t →
    (t.code = 5 ↔ ∃ e, decode w = .error e) ∧ t.code ≠ 6 ∧ t.code ≠ 7

/-- R171: the next command is executed normally whatever `CODE` (and `EMIT_CNT`) holds: no operation reads them. -/
def Obligations.OperationsIgnoreTheLastOutcome : Prop :=
  ∀ (s : State) (i : Instr) (c e : BitVec 3), exec i { s with code := c, emitCnt := e } = exec i s

/-- The model's choices (log 4, log 11): where an operation stops: a packet of 12 bytes or more of which byte 5 or byte 4 has no value,
the first byte of a complete segment that has none, and `LINE_OK = 1` without a line; that the invariant (R32) rules out every state in
which an operation faults; and that no operation is refused. -/
def Obligations.UnreachableStatesStop : Prop :=
  (∀ (s : State) (i : Instr), 12 ≤ s.pktLen.toNat → i = .hdr ∨ (∃ t, i = .live t) ∨ i = .mon ∨ i = .rply →
    (s.pkt.read 5 = none → exec i s = .fault (.unloadedByte 5)) ∧
    (∀ b, s.pkt.read 5 = some b → s.pkt.read 4 = none → exec i s = .fault (.unloadedByte 4))) ∧
  (∀ (s : State) (k : LineIdx), 0 < s.params.bpl → 12 + (k.toNat * s.params.bpl + s.params.bpl) ≤ s.pktLen.toNat →
    s.pkt.read (12 + k.toNat * s.params.bpl) = none →
      exec (.pxl k) s = .fault (.unloadedByte (12 + k.toNat * s.params.bpl))) ∧
  (∀ s : State, s.lineOk = true → s.lineBuf = none → exec .rnd s = .fault .lineBufInvalid) ∧
  (∀ (s : State) (i : Instr) (f : Fault), exec i s = .fault f → ¬ s.Inv) ∧
  ∀ (s : State) (i : Instr) (r : Refusal), exec i s ≠ .refused r

/-! ## Frames -/

/-- R57, R58, R61: no operation writes the packet buffer: every byte reads as before, and `PKT_LEN` is unchanged; nor does one touch
the model's own fields (log 1, log 2, log 3, log 6). -/
def Obligations.NoOperationWritesThePacket : Prop :=
  ∀ (s t : State) (i : Instr), exec i s = .next t →
    (∀ a, t.pkt.read a = s.pkt.read a) ∧ t.pkt = s.pkt ∧ t.pktLen = s.pktLen ∧ t.params = s.params ∧ t.inbox = s.inbox ∧
      t.answer = s.answer ∧ t.freeCount = s.freeCount

/-- R31: the table of which operation writes which register, row by row: what each leaves unchanged, what the composites, the load and
the reset clear, and how many records are appended. -/
def Obligations.WhatEachOperationWrites : Prop :=
  (∀ s t : State, exec .hdr s = .next t →
    t.selIdx = s.selIdx ∧ t.matched = s.matched ∧ t.lineBuf = s.lineBuf ∧ t.lineOk = s.lineOk ∧ t.out = s.out) ∧
  (∀ (s t : State) (g : LineNo), exec (.sel g) s = .next t →
    t.startLine = s.startLine ∧ t.hdrOk = s.hdrOk ∧ t.lineBuf = s.lineBuf ∧ t.lineOk = s.lineOk ∧ t.out = s.out) ∧
  (∀ (s t : State) (i : LineIdx), exec (.pxl i) s = .next t →
    t.startLine = s.startLine ∧ t.hdrOk = s.hdrOk ∧ t.selIdx = s.selIdx ∧ t.matched = s.matched ∧ t.out = s.out) ∧
  (∀ s t : State, exec .rnd s = .next t →
    t.startLine = s.startLine ∧ t.hdrOk = s.hdrOk ∧ t.selIdx = s.selIdx ∧ t.matched = s.matched ∧
    t.lineBuf = s.lineBuf ∧ t.lineOk = s.lineOk ∧
    (s.lineOk = true → ∃ r, t.out = s.out ++ [r]) ∧ (s.lineOk = false → t.out = s.out)) ∧
  (∀ (s t : State) (i : Instr), (∃ g, i = .live g) ∨ i = .mon → exec i s = .next t →
    t.out = s.out ∨ ∃ r, t.out = s.out ++ [r]) ∧
  (∀ s t : State, exec .rply s = .next t →
    t.selIdx = 0 ∧ t.matched = false ∧ ∃ rs, rs.length ≤ 4 ∧ t.out = s.out ++ rs) ∧
  (∀ s t : State, illegalCommand s = .next t →
    t.startLine = s.startLine ∧ t.hdrOk = s.hdrOk ∧ t.selIdx = s.selIdx ∧ t.matched = s.matched ∧
    t.lineBuf = s.lineBuf ∧ t.lineOk = s.lineOk ∧ t.out = s.out) ∧
  (∀ (s t : State) (p : List Byte), loadPacket p s = .next t →
    t.startLine = 0 ∧ t.hdrOk = false ∧ t.selIdx = 0 ∧ t.matched = false ∧ t.lineBuf = none ∧ t.lineOk = false ∧
    t.emitCnt = 0 ∧ t.code = 0 ∧ t.out = s.out) ∧
  (∀ s t : State, resetBlock s = .next t →
    t.startLine = 0 ∧ t.hdrOk = false ∧ t.selIdx = 0 ∧ t.matched = false ∧ t.lineBuf = none ∧ t.lineOk = false ∧
    t.emitCnt = 0 ∧ t.code = 0 ∧ t.out = []) ∧
  (∀ (s t : State) (i : Instr), exec i s = .next t → t.pkt = s.pkt ∧ t.pktLen = s.pktLen)

/-- R27: `EMIT_CNT` is the number of records the operation appended to `OUT`: 0 for HDR, SEL and PXL, at most 1 for RND and LIVE, at
most 4 for RPLY; nothing already in `OUT` moves. -/
def Obligations.EmitCountIsTheRecordsAppended : Prop :=
  ∀ (s t : State) (i : Instr), exec i s = .next t →
    ∃ rs, t.out = s.out ++ rs ∧ t.emitCnt.toNat = rs.length ∧
      match i with
      | .hdr => rs = []
      | .sel _ => rs = []
      | .pxl _ => rs = []
      | .rnd => rs.length ≤ 1
      | .live _ => rs.length ≤ 1
      | .rply => rs.length ≤ 4
      | .mon => rs.length ≤ 1

/-- R59: repeating HDR, SEL with the same target or PXL with the same index gives the same state; repeating RND appends an identical
record. -/
def Obligations.RepeatingAnOperation : Prop :=
  (∀ (s t : State) (i : Instr), i = .hdr ∨ (∃ g, i = .sel g) ∨ (∃ k, i = .pxl k) → exec i s = .next t → exec i t = .next t) ∧
  ∀ (s : State) (l : List ColorIndex), s.lineOk = true → s.lineBuf = some l →
    ∃ t u r, exec .rnd s = .next t ∧ exec .rnd t = .next u ∧ t.out = s.out ++ [r] ∧ u.out = s.out ++ [r, r]

/-- R12, R58: `MemRead(a, 1)` answers the byte `PKT[a]`, is defined only for `a < PKT_LEN`, and answers every byte of the packet the
state holds. (That a read elsewhere stops is the model's choice, log 4.) -/
def Obligations.PacketReadsStayBelowItsLength : Prop :=
  (∀ (s : State) (a : Nat) (b : Byte), s.memRead a = .ok b → a < s.pktLen.toNat ∧ s.pkt.read a = some b) ∧
  (∀ (s : State) (a : Nat), s.pktLen.toNat ≤ a → s.memRead a = .error (.beyondPacket a)) ∧
  ∀ (s : State) (p : List Byte) (a : Nat) (b : Byte), s.HoldsPacket p → p[a]? = some b → s.memRead a = .ok b

/-! ## The function level -/

/-- R110: `F_decodeHeader`: `fail` below 12 bytes, else byte 4 is the low byte, bits 6:0 of byte 5 the rest, bit 7 dropped. -/
def Obligations.HeaderFormula : Prop :=
  (∀ p : List Byte, p.length < 12 → fDecodeHeader p = none) ∧
  ∀ (p : List Byte) (b4 b5 : Byte), 12 ≤ p.length → p[4]? = some b4 → p[5]? = some b5 →
    ∃ l, fDecodeHeader p = some l ∧ l.toNat = (b4.toNat + 256 * b5.toNat) % 32768 ∧
      l.toNat % 256 = b4.toNat ∧ l.toNat / 256 = b5.toNat % 128

/-- R112 (b): each of the 32768 start lines is reached by exactly two pairs of bytes 4 and 5, the two values of the dropped bit. -/
def Obligations.EachStartLineHasTwoBytePairs : Prop :=
  ∀ (l : LineNo) (b4 b5 : Byte),
    startLineOf (lineWord b5 b4) = l ↔
      b4.toNat = l.toNat % 256 ∧ (b5.toNat = l.toNat / 256 ∨ b5.toNat = l.toNat / 256 + 128)

/-- R123: the selector matches iff `startLine <= targetLine < startLine + 4`, the index is their difference (a `LineIdx`, so in [0,4)), and for a
fixed target exactly the start lines `t - 3` to `t` match. -/
def Obligations.SelectorMatchesExactlyFourLines : Prop :=
  (∀ s t : Nat, (∃ k, fSelectLine s t = some k) ↔ s ≤ t ∧ t < s + 4) ∧
  (∀ (s t : Nat) (k : LineIdx), fSelectLine s t = some k ↔ s + k.toNat = t) ∧
  ∀ s t : Nat, fSelectLine s t = none ↔ t < s ∨ s + 3 < t

/-- R120, R122: the operation level's comparator is `F_selectLine` on mathematical integers; a 16-bit unsigned adder and comparator
give the same result, so nothing wraps. -/
def Obligations.SelectorNeedsNoWrapAround : Prop :=
  ∀ s t : LineNo,
    (targetInPacket s t = true ↔ fSelectLine s.toNat t.toNat = some (selectedIdx s t)) ∧
    (targetInPacket s t = true ↔ s.setWidth 16 ≤ t.setWidth 16 ∧ t.setWidth 16 < s.setWidth 16 + 4#16)

/-- R130: `F_split` gives the high nibble, then the low one, and is a bijection whose inverse is `(left << 4) | right`. -/
def Obligations.SplitIsABijection : Prop :=
  (∀ b : Byte, (fSplit b).1.toNat = b.toNat / 16 ∧ (fSplit b).2.toNat = b.toNat % 16 ∧ fJoin (fSplit b).1 (fSplit b).2 = b) ∧
  ∀ l r : ColorIndex, fSplit (fJoin l r) = (l, r) ∧ (fJoin l r).toNat = 16 * l.toNat + r.toNat

/-- R134: packing a sequence of colour indices two to a byte and decoding line `i` gives back exactly the `i`-th `2 * BPL` of them;
and packing a decoded line gives back the segment's bytes, so nothing of it is lost. -/
def Obligations.PackedLinesDecodeBack : Prop :=
  (∀ (bpl r : Nat) (i : LineIdx) (c : List ColorIndex), 1 ≤ r → r ≤ 4 → i.toNat < r → c.length = 2 * bpl * r →
    fDecodePixelLine bpl (packLine c) i = some ((c.drop (2 * bpl * i.toNat)).take (2 * bpl))) ∧
  ∀ (bpl : Nat) (i : LineIdx) (q : List Byte) (l : List ColorIndex), fDecodePixelLine bpl q i = some l →
    packLine l = (q.drop (i.toNat * bpl)).take bpl

/-- R92: a packet built for a start line and up to four packed lines decodes to them, whatever the reserved bytes and bit. -/
def Obligations.BuiltPacketsDecodeBack : Prop :=
  ∀ (rsv0 : Vector Byte 4) (rsv1 : Vector Byte 6) (s : LineNo) (top : Bool) (bpl r : Nat) (c : List ColorIndex),
    r ≤ 4 → c.length = 2 * bpl * r →
      fDecodeHeader (buildPacket rsv0 s top rsv1 (packLine c)) = some s ∧
      ∀ i : LineIdx, i.toNat < r → fDecodePixelLine bpl (pixelPayload (buildPacket rsv0 s top rsv1 (packLine c))) i =
        some ((c.drop (2 * bpl * i.toNat)).take (2 * bpl))

/-- R135: line index `i` decodes exactly when `(i + 1) * BPL <= PIXLEN`, that is when `i < L = min(4, PIXLEN div BPL)`; if it fails
every higher index fails; and the bytes after the last complete segment are never read: two payloads of one length that agree on
their first `L * BPL` bytes decode alike. -/
def Obligations.CompleteLinesAreAPrefix : Prop :=
  ∀ (bpl : Nat) (q : List Byte), 0 < bpl →
    (∀ i : LineIdx,
      ((fDecodePixelLine bpl q i).isSome ↔ (i.toNat + 1) * bpl ≤ q.length) ∧
      ((fDecodePixelLine bpl q i).isSome ↔ i.toNat < completeLines bpl (12 + q.length)) ∧
      (∀ k, i.toNat ≤ k.toNat → fDecodePixelLine bpl q i = none → fDecodePixelLine bpl q k = none)) ∧
    ∀ (q' : List Byte), q'.length = q.length →
      q'.take (completeLines bpl (12 + q.length) * bpl) = q.take (completeLines bpl (12 + q.length) * bpl) →
      ∀ i : LineIdx, fDecodePixelLine bpl q' i = fDecodePixelLine bpl q i

/-- R69: cutting a packet to its first 2048 bytes changes no result, for every `BPL` the spec admits. -/
def Obligations.CuttingAPacketChangesNothing : Prop :=
  ∀ (prm : Config.Params) (p : List Byte), prm.wf = true →
    fDecodeHeader (p.take 2048) = fDecodeHeader p ∧
    ∀ i : LineIdx, fDecodePixelLine prm.bpl (pixelPayload (p.take 2048)) i = fDecodePixelLine prm.bpl (pixelPayload p) i

/-- R7, R8, R9: admitted parameters have `1 <= BPL <= 509`, `PALETTE[5] = 'G'` (0x47) and `PALETTE[10] = 'r'` (0x72), and conversely; the
machine's own are admitted. -/
def Obligations.AdmittedParameters : Prop :=
  (∀ prm : Config.Params, prm.wf = true ↔
    1 ≤ prm.bpl ∧ prm.bpl ≤ 509 ∧ prm.palette[5] = 0x47 ∧ prm.palette[10] = 0x72) ∧
  Config.params.wf = true

/-- R145 (the source's scenario 3): the byte 0xA5 decodes to colour indices 10, 5 and renders as the glyphs `'r'`, `'G'`. That their
codes are 0x72 and 0x47 is PRESUMED (log 15: the spec has them from general knowledge). -/
def Obligations.ByteA5RendersAsRG : Prop :=
  fSplit 0xA5 = (10, 5) ∧
  ∀ prm : Config.Params, prm.wf = true → fRender prm (unpackBytes [0xA5]) = [0x72, 0x47]

/-! ## The machine as a whole -/

/-- R149, R148: what LIVE emits is one record of `2 * BPL` glyphs, the fused look-up of the selected segment's bytes: glyph `2j` is
`PALETTE[b[7:4]]` and glyph `2j + 1` is `PALETTE[b[3:0]]` of its byte `j`. -/
def Obligations.LiveRecordIsTheFusedLookUp : Prop :=
  ∀ (s t : State) (p : List Byte) (target : LineNo), s.HoldsPacket p → exec (.live target) s = .next t → t.emitCnt = 1 →
    ∃ r, t.out = s.out ++ [r] ∧ r.length = 2 * s.params.bpl ∧
      ∀ j, j < s.params.bpl → ∃ b, p[12 + t.selIdx.toNat * s.params.bpl + j]? = some b ∧
        r[2 * j]? = some (s.params.glyph (b.extractLsb' 4 4)) ∧ r[2 * j + 1]? = some (s.params.glyph (b.extractLsb' 0 4))

/-- R157: from the state right after a packet load, LIVE leaves the same state as its sequence of primitives, and RPLY the same as its
own but for `EMIT_CNT` and `CODE`. -/
def Obligations.CompositesAgreeWithThePrimitives : Prop :=
  ∀ (s : State) (p : List Byte), p.length ≤ 2048 →
    (∀ t, ∃ u, exec (.live t) (loaded p s) = .next u ∧ livePrimitives t (loaded p s) = .next u) ∧
    ∃ u v, exec .rply (loaded p s) = .next u ∧ replayPrimitives (loaded p s) = .next v ∧
      u = { v with emitCnt := u.emitCnt, code := u.code }

/-- R32 (with R23, R29, R8, R9): the invariant (a) to (g) is kept by every step: every operation, every illegal command, every load, read,
drain and reset. -/
def Obligations.StepKeepsTheInvariant : Prop :=
  ∀ s t : State, s.Inv → step s = .next t → t.Inv

/-- R32: the invariant holds after reset. -/
def Obligations.ResetMeetsTheInvariant : Prop := State.reset.Inv

/-- R185: every operation, on every state that meets the invariant of R32, completes with one of the codes 0 to 5; and while the host keeps
its duties (R205) every step answers a next state: the block never halts and never sticks. -/
def Obligations.TheBlockNeverStops : Prop :=
  (∀ (s : State) (i : Instr), s.Inv → ∃ t, exec i s = .next t ∧ t.code.toNat ≤ 5) ∧
  ∀ s : State, s.Inv → s.HostPermitted → ∃ t, step s = .next t ∧ t.HostPermitted

/-- R186: each record an operation appends to `OUT` is `F_render` of `F_decodePixelLine` of a complete segment of the packet now loaded. -/
def Obligations.NoWrongOutput : Prop :=
  ∀ (s t : State) (i : Instr), s.Inv → exec i s = .next t →
    ∃ rs, t.out = s.out ++ rs ∧ ∀ r ∈ rs, ∃ p k c, s.HoldsPacket p ∧ 12 ≤ p.length ∧
      fDecodePixelLine s.params.bpl (pixelPayload p) k = some c ∧ r = fRender s.params c

/-- R58, R81, R83: the bytes at `PKT_LEN` and above, the reserved header bytes and the reserved top bit of the line word influence no
register and no record: two states that differ only in the buffer and hold packets equal but for those are taken by every operation
to states that differ only in the buffer. -/
def Obligations.UninterpretedBytesInfluenceNothing : Prop :=
  ∀ (s : State) (m : Memory) (p q : List Byte) (i : Instr), s.HoldsPacket p → State.HoldsPacket { s with pkt := m } q →
    SameButReserved p q → s.LineCleared →
      ∃ t, exec i s = .next t ∧ exec i { s with pkt := m } = .next { t with pkt := m }

/-- R34: nothing carries over from one packet to the next: from any two states with the same parameters, loading the same packet and
running the same command words, legal or not (R84, R88), completes, gives the same registers and appends the same records. -/
def Obligations.NoCrossPacketMemory : Prop :=
  ∀ (s s' : State) (p : List Byte) (ws : List CmdWord), p.length ≤ 2048 → s.params = s'.params →
    ∃ t t' rs, runCommands ws (loaded p s) = .next t ∧ runCommands ws (loaded p s') = .next t' ∧
      t.results = t'.results ∧ t.pktLen = t'.pktLen ∧ t.out = s.out ++ rs ∧ t'.out = s'.out ++ rs

/-- R207 (with R69 and R91): from a block with no undrained record, the live host prints, over any sequence of datagrams of any length
and timeouts, exactly the lines the function level shows for target line 136, in order, and leaves no record undrained. The host as a
function over byte lists, with timeouts and printed lines as data, is the model's choice (log 21). -/
def Obligations.LiveHostPrintsTheWantedLines : Prop :=
  ∀ (s : State) (ds : List (Option (List Byte))), s.params.wf = true → s.out = [] →
    ∃ t, liveHost ds ⟨s, []⟩ = .next t ∧ t.block.out = [] ∧
      t.printed = ds.filterMap fun d => d.bind (fLive s.params 136)

/-- R208 (with R69): from a block with no undrained record, the replay host prints, over any capture, exactly every complete line of
every payload in index order, and leaves no record undrained. The host as a function over absent or present payloads, with printed
lines as data, is the model's choice (log 21). -/
def Obligations.ReplayHostPrintsEveryCompleteLine : Prop :=
  ∀ (s : State) (ps : List (Option (List Byte))), s.params.wf = true → s.out = [] →
    ∃ t, replayHost ps ⟨s, []⟩ = .next t ∧ t.block.out = [] ∧
      t.printed = ps.flatMap fun p => (p.map (fReplay s.params)).getD []
end

