-- ==== Sys2Proof/Laws/State.lean ====
section
/-!
SUPPORT. One lemma per field per named update of the state, each true by rfl, so that no proof unfolds a record update.
-/

namespace Sys2Proof.Machine

variable (s : State)

@[simp] theorem State.raise_pkt (c : Condition) : (s.raise c).pkt = s.pkt := rfl
@[simp] theorem State.raise_pktLen (c : Condition) : (s.raise c).pktLen = s.pktLen := rfl
@[simp] theorem State.raise_startLine (c : Condition) : (s.raise c).startLine = s.startLine := rfl
@[simp] theorem State.raise_hdrOk (c : Condition) : (s.raise c).hdrOk = s.hdrOk := rfl
@[simp] theorem State.raise_selIdx (c : Condition) : (s.raise c).selIdx = s.selIdx := rfl
@[simp] theorem State.raise_matched (c : Condition) : (s.raise c).matched = s.matched := rfl
@[simp] theorem State.raise_lineBuf (c : Condition) : (s.raise c).lineBuf = s.lineBuf := rfl
@[simp] theorem State.raise_lineOk (c : Condition) : (s.raise c).lineOk = s.lineOk := rfl
@[simp] theorem State.raise_emitCnt (c : Condition) : (s.raise c).emitCnt = s.emitCnt := rfl
@[simp] theorem State.raise_code (c : Condition) : (s.raise c).code = c.code := rfl
@[simp] theorem State.raise_out (c : Condition) : (s.raise c).out = s.out := rfl
@[simp] theorem State.raise_params (c : Condition) : (s.raise c).params = s.params := rfl
@[simp] theorem State.raise_inbox (c : Condition) : (s.raise c).inbox = s.inbox := rfl
@[simp] theorem State.raise_answer (c : Condition) : (s.raise c).answer = s.answer := rfl
@[simp] theorem State.raise_freeCount (c : Condition) : (s.raise c).freeCount = s.freeCount := rfl

@[simp] theorem State.setEmitCnt_pkt (n : Nat) : (s.setEmitCnt n).pkt = s.pkt := rfl
@[simp] theorem State.setEmitCnt_pktLen (n : Nat) : (s.setEmitCnt n).pktLen = s.pktLen := rfl
@[simp] theorem State.setEmitCnt_startLine (n : Nat) : (s.setEmitCnt n).startLine = s.startLine := rfl
@[simp] theorem State.setEmitCnt_hdrOk (n : Nat) : (s.setEmitCnt n).hdrOk = s.hdrOk := rfl
@[simp] theorem State.setEmitCnt_selIdx (n : Nat) : (s.setEmitCnt n).selIdx = s.selIdx := rfl
@[simp] theorem State.setEmitCnt_matched (n : Nat) : (s.setEmitCnt n).matched = s.matched := rfl
@[simp] theorem State.setEmitCnt_lineBuf (n : Nat) : (s.setEmitCnt n).lineBuf = s.lineBuf := rfl
@[simp] theorem State.setEmitCnt_lineOk (n : Nat) : (s.setEmitCnt n).lineOk = s.lineOk := rfl
@[simp] theorem State.setEmitCnt_emitCnt (n : Nat) : (s.setEmitCnt n).emitCnt = BitVec.ofNat 3 n := rfl
@[simp] theorem State.setEmitCnt_code (n : Nat) : (s.setEmitCnt n).code = s.code := rfl
@[simp] theorem State.setEmitCnt_out (n : Nat) : (s.setEmitCnt n).out = s.out := rfl
@[simp] theorem State.setEmitCnt_params (n : Nat) : (s.setEmitCnt n).params = s.params := rfl
@[simp] theorem State.setEmitCnt_inbox (n : Nat) : (s.setEmitCnt n).inbox = s.inbox := rfl
@[simp] theorem State.setEmitCnt_answer (n : Nat) : (s.setEmitCnt n).answer = s.answer := rfl
@[simp] theorem State.setEmitCnt_freeCount (n : Nat) : (s.setEmitCnt n).freeCount = s.freeCount := rfl

@[simp] theorem State.setHeader_pkt (l : LineNo) : (s.setHeader l).pkt = s.pkt := rfl
@[simp] theorem State.setHeader_pktLen (l : LineNo) : (s.setHeader l).pktLen = s.pktLen := rfl
@[simp] theorem State.setHeader_startLine (l : LineNo) : (s.setHeader l).startLine = l := rfl
@[simp] theorem State.setHeader_hdrOk (l : LineNo) : (s.setHeader l).hdrOk = true := rfl
@[simp] theorem State.setHeader_selIdx (l : LineNo) : (s.setHeader l).selIdx = s.selIdx := rfl
@[simp] theorem State.setHeader_matched (l : LineNo) : (s.setHeader l).matched = s.matched := rfl
@[simp] theorem State.setHeader_lineBuf (l : LineNo) : (s.setHeader l).lineBuf = s.lineBuf := rfl
@[simp] theorem State.setHeader_lineOk (l : LineNo) : (s.setHeader l).lineOk = s.lineOk := rfl
@[simp] theorem State.setHeader_emitCnt (l : LineNo) : (s.setHeader l).emitCnt = s.emitCnt := rfl
@[simp] theorem State.setHeader_code (l : LineNo) : (s.setHeader l).code = s.code := rfl
@[simp] theorem State.setHeader_out (l : LineNo) : (s.setHeader l).out = s.out := rfl
@[simp] theorem State.setHeader_params (l : LineNo) : (s.setHeader l).params = s.params := rfl
@[simp] theorem State.setHeader_inbox (l : LineNo) : (s.setHeader l).inbox = s.inbox := rfl
@[simp] theorem State.setHeader_answer (l : LineNo) : (s.setHeader l).answer = s.answer := rfl
@[simp] theorem State.setHeader_freeCount (l : LineNo) : (s.setHeader l).freeCount = s.freeCount := rfl

@[simp] theorem State.clearHeader_pkt : s.clearHeader.pkt = s.pkt := rfl
@[simp] theorem State.clearHeader_pktLen : s.clearHeader.pktLen = s.pktLen := rfl
@[simp] theorem State.clearHeader_startLine : s.clearHeader.startLine = 0 := rfl
@[simp] theorem State.clearHeader_hdrOk : s.clearHeader.hdrOk = false := rfl
@[simp] theorem State.clearHeader_selIdx : s.clearHeader.selIdx = s.selIdx := rfl
@[simp] theorem State.clearHeader_matched : s.clearHeader.matched = s.matched := rfl
@[simp] theorem State.clearHeader_lineBuf : s.clearHeader.lineBuf = s.lineBuf := rfl
@[simp] theorem State.clearHeader_lineOk : s.clearHeader.lineOk = s.lineOk := rfl
@[simp] theorem State.clearHeader_emitCnt : s.clearHeader.emitCnt = s.emitCnt := rfl
@[simp] theorem State.clearHeader_code : s.clearHeader.code = s.code := rfl
@[simp] theorem State.clearHeader_out : s.clearHeader.out = s.out := rfl
@[simp] theorem State.clearHeader_params : s.clearHeader.params = s.params := rfl
@[simp] theorem State.clearHeader_inbox : s.clearHeader.inbox = s.inbox := rfl
@[simp] theorem State.clearHeader_answer : s.clearHeader.answer = s.answer := rfl
@[simp] theorem State.clearHeader_freeCount : s.clearHeader.freeCount = s.freeCount := rfl

@[simp] theorem State.setSelection_pkt (i : LineIdx) : (s.setSelection i).pkt = s.pkt := rfl
@[simp] theorem State.setSelection_pktLen (i : LineIdx) : (s.setSelection i).pktLen = s.pktLen := rfl
@[simp] theorem State.setSelection_startLine (i : LineIdx) : (s.setSelection i).startLine = s.startLine := rfl
@[simp] theorem State.setSelection_hdrOk (i : LineIdx) : (s.setSelection i).hdrOk = s.hdrOk := rfl
@[simp] theorem State.setSelection_selIdx (i : LineIdx) : (s.setSelection i).selIdx = i := rfl
@[simp] theorem State.setSelection_matched (i : LineIdx) : (s.setSelection i).matched = true := rfl
@[simp] theorem State.setSelection_lineBuf (i : LineIdx) : (s.setSelection i).lineBuf = s.lineBuf := rfl
@[simp] theorem State.setSelection_lineOk (i : LineIdx) : (s.setSelection i).lineOk = s.lineOk := rfl
@[simp] theorem State.setSelection_emitCnt (i : LineIdx) : (s.setSelection i).emitCnt = s.emitCnt := rfl
@[simp] theorem State.setSelection_code (i : LineIdx) : (s.setSelection i).code = s.code := rfl
@[simp] theorem State.setSelection_out (i : LineIdx) : (s.setSelection i).out = s.out := rfl
@[simp] theorem State.setSelection_params (i : LineIdx) : (s.setSelection i).params = s.params := rfl
@[simp] theorem State.setSelection_inbox (i : LineIdx) : (s.setSelection i).inbox = s.inbox := rfl
@[simp] theorem State.setSelection_answer (i : LineIdx) : (s.setSelection i).answer = s.answer := rfl
@[simp] theorem State.setSelection_freeCount (i : LineIdx) : (s.setSelection i).freeCount = s.freeCount := rfl

@[simp] theorem State.clearSelection_pkt : s.clearSelection.pkt = s.pkt := rfl
@[simp] theorem State.clearSelection_pktLen : s.clearSelection.pktLen = s.pktLen := rfl
@[simp] theorem State.clearSelection_startLine : s.clearSelection.startLine = s.startLine := rfl
@[simp] theorem State.clearSelection_hdrOk : s.clearSelection.hdrOk = s.hdrOk := rfl
@[simp] theorem State.clearSelection_selIdx : s.clearSelection.selIdx = 0 := rfl
@[simp] theorem State.clearSelection_matched : s.clearSelection.matched = false := rfl
@[simp] theorem State.clearSelection_lineBuf : s.clearSelection.lineBuf = s.lineBuf := rfl
@[simp] theorem State.clearSelection_lineOk : s.clearSelection.lineOk = s.lineOk := rfl
@[simp] theorem State.clearSelection_emitCnt : s.clearSelection.emitCnt = s.emitCnt := rfl
@[simp] theorem State.clearSelection_code : s.clearSelection.code = s.code := rfl
@[simp] theorem State.clearSelection_out : s.clearSelection.out = s.out := rfl
@[simp] theorem State.clearSelection_params : s.clearSelection.params = s.params := rfl
@[simp] theorem State.clearSelection_inbox : s.clearSelection.inbox = s.inbox := rfl
@[simp] theorem State.clearSelection_answer : s.clearSelection.answer = s.answer := rfl
@[simp] theorem State.clearSelection_freeCount : s.clearSelection.freeCount = s.freeCount := rfl

@[simp] theorem State.setLine_pkt (l : List ColorIndex) : (s.setLine l).pkt = s.pkt := rfl
@[simp] theorem State.setLine_pktLen (l : List ColorIndex) : (s.setLine l).pktLen = s.pktLen := rfl
@[simp] theorem State.setLine_startLine (l : List ColorIndex) : (s.setLine l).startLine = s.startLine := rfl
@[simp] theorem State.setLine_hdrOk (l : List ColorIndex) : (s.setLine l).hdrOk = s.hdrOk := rfl
@[simp] theorem State.setLine_selIdx (l : List ColorIndex) : (s.setLine l).selIdx = s.selIdx := rfl
@[simp] theorem State.setLine_matched (l : List ColorIndex) : (s.setLine l).matched = s.matched := rfl
@[simp] theorem State.setLine_lineBuf (l : List ColorIndex) : (s.setLine l).lineBuf = some l := rfl
@[simp] theorem State.setLine_lineOk (l : List ColorIndex) : (s.setLine l).lineOk = true := rfl
@[simp] theorem State.setLine_emitCnt (l : List ColorIndex) : (s.setLine l).emitCnt = s.emitCnt := rfl
@[simp] theorem State.setLine_code (l : List ColorIndex) : (s.setLine l).code = s.code := rfl
@[simp] theorem State.setLine_out (l : List ColorIndex) : (s.setLine l).out = s.out := rfl
@[simp] theorem State.setLine_params (l : List ColorIndex) : (s.setLine l).params = s.params := rfl
@[simp] theorem State.setLine_inbox (l : List ColorIndex) : (s.setLine l).inbox = s.inbox := rfl
@[simp] theorem State.setLine_answer (l : List ColorIndex) : (s.setLine l).answer = s.answer := rfl
@[simp] theorem State.setLine_freeCount (l : List ColorIndex) : (s.setLine l).freeCount = s.freeCount := rfl

@[simp] theorem State.clearLine_pkt : s.clearLine.pkt = s.pkt := rfl
@[simp] theorem State.clearLine_pktLen : s.clearLine.pktLen = s.pktLen := rfl
@[simp] theorem State.clearLine_startLine : s.clearLine.startLine = s.startLine := rfl
@[simp] theorem State.clearLine_hdrOk : s.clearLine.hdrOk = s.hdrOk := rfl
@[simp] theorem State.clearLine_selIdx : s.clearLine.selIdx = s.selIdx := rfl
@[simp] theorem State.clearLine_matched : s.clearLine.matched = s.matched := rfl
@[simp] theorem State.clearLine_lineBuf : s.clearLine.lineBuf = none := rfl
@[simp] theorem State.clearLine_lineOk : s.clearLine.lineOk = false := rfl
@[simp] theorem State.clearLine_emitCnt : s.clearLine.emitCnt = s.emitCnt := rfl
@[simp] theorem State.clearLine_code : s.clearLine.code = s.code := rfl
@[simp] theorem State.clearLine_out : s.clearLine.out = s.out := rfl
@[simp] theorem State.clearLine_params : s.clearLine.params = s.params := rfl
@[simp] theorem State.clearLine_inbox : s.clearLine.inbox = s.inbox := rfl
@[simp] theorem State.clearLine_answer : s.clearLine.answer = s.answer := rfl
@[simp] theorem State.clearLine_freeCount : s.clearLine.freeCount = s.freeCount := rfl

@[simp] theorem State.emit_pkt (r : Record) : (s.emit r).pkt = s.pkt := rfl
@[simp] theorem State.emit_pktLen (r : Record) : (s.emit r).pktLen = s.pktLen := rfl
@[simp] theorem State.emit_startLine (r : Record) : (s.emit r).startLine = s.startLine := rfl
@[simp] theorem State.emit_hdrOk (r : Record) : (s.emit r).hdrOk = s.hdrOk := rfl
@[simp] theorem State.emit_selIdx (r : Record) : (s.emit r).selIdx = s.selIdx := rfl
@[simp] theorem State.emit_matched (r : Record) : (s.emit r).matched = s.matched := rfl
@[simp] theorem State.emit_lineBuf (r : Record) : (s.emit r).lineBuf = s.lineBuf := rfl
@[simp] theorem State.emit_lineOk (r : Record) : (s.emit r).lineOk = s.lineOk := rfl
@[simp] theorem State.emit_emitCnt (r : Record) : (s.emit r).emitCnt = s.emitCnt := rfl
@[simp] theorem State.emit_code (r : Record) : (s.emit r).code = s.code := rfl
@[simp] theorem State.emit_out (r : Record) : (s.emit r).out = s.out ++ [r] := rfl
@[simp] theorem State.emit_params (r : Record) : (s.emit r).params = s.params := rfl
@[simp] theorem State.emit_inbox (r : Record) : (s.emit r).inbox = s.inbox := rfl
@[simp] theorem State.emit_answer (r : Record) : (s.emit r).answer = s.answer := rfl
@[simp] theorem State.emit_freeCount (r : Record) : (s.emit r).freeCount = s.freeCount := rfl

@[simp] theorem State.give_pkt (a : Answer) : (s.give a).pkt = s.pkt := rfl
@[simp] theorem State.give_pktLen (a : Answer) : (s.give a).pktLen = s.pktLen := rfl
@[simp] theorem State.give_startLine (a : Answer) : (s.give a).startLine = s.startLine := rfl
@[simp] theorem State.give_hdrOk (a : Answer) : (s.give a).hdrOk = s.hdrOk := rfl
@[simp] theorem State.give_selIdx (a : Answer) : (s.give a).selIdx = s.selIdx := rfl
@[simp] theorem State.give_matched (a : Answer) : (s.give a).matched = s.matched := rfl
@[simp] theorem State.give_lineBuf (a : Answer) : (s.give a).lineBuf = s.lineBuf := rfl
@[simp] theorem State.give_lineOk (a : Answer) : (s.give a).lineOk = s.lineOk := rfl
@[simp] theorem State.give_emitCnt (a : Answer) : (s.give a).emitCnt = s.emitCnt := rfl
@[simp] theorem State.give_code (a : Answer) : (s.give a).code = s.code := rfl
@[simp] theorem State.give_out (a : Answer) : (s.give a).out = s.out := rfl
@[simp] theorem State.give_params (a : Answer) : (s.give a).params = s.params := rfl
@[simp] theorem State.give_inbox (a : Answer) : (s.give a).inbox = s.inbox := rfl
@[simp] theorem State.give_answer (a : Answer) : (s.give a).answer = a := rfl
@[simp] theorem State.give_freeCount (a : Answer) : (s.give a).freeCount = s.freeCount := rfl

@[simp] theorem State.take_pkt (rest : List Transaction) : (s.take rest).pkt = s.pkt := rfl
@[simp] theorem State.take_pktLen (rest : List Transaction) : (s.take rest).pktLen = s.pktLen := rfl
@[simp] theorem State.take_startLine (rest : List Transaction) : (s.take rest).startLine = s.startLine := rfl
@[simp] theorem State.take_hdrOk (rest : List Transaction) : (s.take rest).hdrOk = s.hdrOk := rfl
@[simp] theorem State.take_selIdx (rest : List Transaction) : (s.take rest).selIdx = s.selIdx := rfl
@[simp] theorem State.take_matched (rest : List Transaction) : (s.take rest).matched = s.matched := rfl
@[simp] theorem State.take_lineBuf (rest : List Transaction) : (s.take rest).lineBuf = s.lineBuf := rfl
@[simp] theorem State.take_lineOk (rest : List Transaction) : (s.take rest).lineOk = s.lineOk := rfl
@[simp] theorem State.take_emitCnt (rest : List Transaction) : (s.take rest).emitCnt = s.emitCnt := rfl
@[simp] theorem State.take_code (rest : List Transaction) : (s.take rest).code = s.code := rfl
@[simp] theorem State.take_out (rest : List Transaction) : (s.take rest).out = s.out := rfl
@[simp] theorem State.take_params (rest : List Transaction) : (s.take rest).params = s.params := rfl
@[simp] theorem State.take_inbox (rest : List Transaction) : (s.take rest).inbox = rest := rfl
@[simp] theorem State.take_answer (rest : List Transaction) : (s.take rest).answer = .nothing := rfl
@[simp] theorem State.take_freeCount (rest : List Transaction) : (s.take rest).freeCount = s.freeCount := rfl

@[simp] theorem State.present_pkt (t : Transaction) : (s.present t).pkt = s.pkt := rfl
@[simp] theorem State.present_pktLen (t : Transaction) : (s.present t).pktLen = s.pktLen := rfl
@[simp] theorem State.present_startLine (t : Transaction) : (s.present t).startLine = s.startLine := rfl
@[simp] theorem State.present_hdrOk (t : Transaction) : (s.present t).hdrOk = s.hdrOk := rfl
@[simp] theorem State.present_selIdx (t : Transaction) : (s.present t).selIdx = s.selIdx := rfl
@[simp] theorem State.present_matched (t : Transaction) : (s.present t).matched = s.matched := rfl
@[simp] theorem State.present_lineBuf (t : Transaction) : (s.present t).lineBuf = s.lineBuf := rfl
@[simp] theorem State.present_lineOk (t : Transaction) : (s.present t).lineOk = s.lineOk := rfl
@[simp] theorem State.present_emitCnt (t : Transaction) : (s.present t).emitCnt = s.emitCnt := rfl
@[simp] theorem State.present_code (t : Transaction) : (s.present t).code = s.code := rfl
@[simp] theorem State.present_out (t : Transaction) : (s.present t).out = s.out := rfl
@[simp] theorem State.present_params (t : Transaction) : (s.present t).params = s.params := rfl
@[simp] theorem State.present_inbox (t : Transaction) : (s.present t).inbox = t :: s.inbox := rfl
@[simp] theorem State.present_answer (t : Transaction) : (s.present t).answer = s.answer := rfl
@[simp] theorem State.present_freeCount (t : Transaction) : (s.present t).freeCount = s.freeCount := rfl

@[simp] theorem forgetResults_pkt : (forgetResults s).pkt = s.pkt := rfl
@[simp] theorem forgetResults_pktLen : (forgetResults s).pktLen = s.pktLen := rfl
@[simp] theorem forgetResults_startLine : (forgetResults s).startLine = s.startLine := rfl
@[simp] theorem forgetResults_hdrOk : (forgetResults s).hdrOk = s.hdrOk := rfl
@[simp] theorem forgetResults_selIdx : (forgetResults s).selIdx = 0 := rfl
@[simp] theorem forgetResults_matched : (forgetResults s).matched = false := rfl
@[simp] theorem forgetResults_lineBuf : (forgetResults s).lineBuf = none := rfl
@[simp] theorem forgetResults_lineOk : (forgetResults s).lineOk = false := rfl
@[simp] theorem forgetResults_emitCnt : (forgetResults s).emitCnt = 0 := rfl
@[simp] theorem forgetResults_code : (forgetResults s).code = s.code := rfl
@[simp] theorem forgetResults_out : (forgetResults s).out = s.out := rfl
@[simp] theorem forgetResults_params : (forgetResults s).params = s.params := rfl
@[simp] theorem forgetResults_inbox : (forgetResults s).inbox = s.inbox := rfl
@[simp] theorem forgetResults_answer : (forgetResults s).answer = s.answer := rfl
@[simp] theorem forgetResults_freeCount : (forgetResults s).freeCount = s.freeCount := rfl

@[simp] theorem clearResults_pkt : (clearResults s).pkt = s.pkt := rfl
@[simp] theorem clearResults_pktLen : (clearResults s).pktLen = s.pktLen := rfl
@[simp] theorem clearResults_startLine : (clearResults s).startLine = 0 := rfl
@[simp] theorem clearResults_hdrOk : (clearResults s).hdrOk = false := rfl
@[simp] theorem clearResults_selIdx : (clearResults s).selIdx = 0 := rfl
@[simp] theorem clearResults_matched : (clearResults s).matched = false := rfl
@[simp] theorem clearResults_lineBuf : (clearResults s).lineBuf = none := rfl
@[simp] theorem clearResults_lineOk : (clearResults s).lineOk = false := rfl
@[simp] theorem clearResults_emitCnt : (clearResults s).emitCnt = 0 := rfl
@[simp] theorem clearResults_code : (clearResults s).code = 0 := rfl
@[simp] theorem clearResults_out : (clearResults s).out = s.out := rfl
@[simp] theorem clearResults_params : (clearResults s).params = s.params := rfl
@[simp] theorem clearResults_inbox : (clearResults s).inbox = s.inbox := rfl
@[simp] theorem clearResults_answer : (clearResults s).answer = s.answer := rfl
@[simp] theorem clearResults_freeCount : (clearResults s).freeCount = s.freeCount := rfl

@[simp] theorem loaded_pkt (p : List Byte) : (loaded p s).pkt = s.pkt.writeBytes 0 p := rfl
@[simp] theorem loaded_pktLen (p : List Byte) : (loaded p s).pktLen = BitVec.ofNat 12 p.length := rfl
@[simp] theorem loaded_startLine (p : List Byte) : (loaded p s).startLine = 0 := rfl
@[simp] theorem loaded_hdrOk (p : List Byte) : (loaded p s).hdrOk = false := rfl
@[simp] theorem loaded_selIdx (p : List Byte) : (loaded p s).selIdx = 0 := rfl
@[simp] theorem loaded_matched (p : List Byte) : (loaded p s).matched = false := rfl
@[simp] theorem loaded_lineBuf (p : List Byte) : (loaded p s).lineBuf = none := rfl
@[simp] theorem loaded_lineOk (p : List Byte) : (loaded p s).lineOk = false := rfl
@[simp] theorem loaded_emitCnt (p : List Byte) : (loaded p s).emitCnt = 0 := rfl
@[simp] theorem loaded_code (p : List Byte) : (loaded p s).code = 0 := rfl
@[simp] theorem loaded_out (p : List Byte) : (loaded p s).out = s.out := rfl
@[simp] theorem loaded_params (p : List Byte) : (loaded p s).params = s.params := rfl
@[simp] theorem loaded_inbox (p : List Byte) : (loaded p s).inbox = s.inbox := rfl
@[simp] theorem loaded_answer (p : List Byte) : (loaded p s).answer = s.answer := rfl
@[simp] theorem loaded_freeCount (p : List Byte) : (loaded p s).freeCount = s.freeCount := rfl

@[simp] theorem finishReplay_pkt (n : Nat) : (finishReplay n s).pkt = s.pkt := rfl
@[simp] theorem finishReplay_pktLen (n : Nat) : (finishReplay n s).pktLen = s.pktLen := rfl
@[simp] theorem finishReplay_startLine (n : Nat) : (finishReplay n s).startLine = s.startLine := rfl
@[simp] theorem finishReplay_hdrOk (n : Nat) : (finishReplay n s).hdrOk = s.hdrOk := rfl
@[simp] theorem finishReplay_selIdx (n : Nat) : (finishReplay n s).selIdx = s.selIdx := rfl
@[simp] theorem finishReplay_matched (n : Nat) : (finishReplay n s).matched = s.matched := rfl
@[simp] theorem finishReplay_lineBuf (n : Nat) : (finishReplay n s).lineBuf = s.lineBuf := rfl
@[simp] theorem finishReplay_lineOk (n : Nat) : (finishReplay n s).lineOk = s.lineOk := rfl
@[simp] theorem finishReplay_emitCnt (n : Nat) : (finishReplay n s).emitCnt = BitVec.ofNat 3 n := rfl
@[simp] theorem finishReplay_code (n : Nat) : (finishReplay n s).code = (if n = 4 then Condition.ok else Condition.insufficientData).code := rfl
@[simp] theorem finishReplay_out (n : Nat) : (finishReplay n s).out = s.out := rfl
@[simp] theorem finishReplay_params (n : Nat) : (finishReplay n s).params = s.params := rfl
@[simp] theorem finishReplay_inbox (n : Nat) : (finishReplay n s).inbox = s.inbox := rfl
@[simp] theorem finishReplay_answer (n : Nat) : (finishReplay n s).answer = s.answer := rfl
@[simp] theorem finishReplay_freeCount (n : Nat) : (finishReplay n s).freeCount = s.freeCount := rfl

@[simp] theorem giveUndefined_pkt : (giveUndefined s).pkt = s.pkt := rfl
@[simp] theorem giveUndefined_pktLen : (giveUndefined s).pktLen = s.pktLen := rfl
@[simp] theorem giveUndefined_startLine : (giveUndefined s).startLine = s.startLine := rfl
@[simp] theorem giveUndefined_hdrOk : (giveUndefined s).hdrOk = s.hdrOk := rfl
@[simp] theorem giveUndefined_selIdx : (giveUndefined s).selIdx = s.selIdx := rfl
@[simp] theorem giveUndefined_matched : (giveUndefined s).matched = s.matched := rfl
@[simp] theorem giveUndefined_lineBuf : (giveUndefined s).lineBuf = s.lineBuf := rfl
@[simp] theorem giveUndefined_lineOk : (giveUndefined s).lineOk = s.lineOk := rfl
@[simp] theorem giveUndefined_emitCnt : (giveUndefined s).emitCnt = s.emitCnt := rfl
@[simp] theorem giveUndefined_code : (giveUndefined s).code = s.code := rfl
@[simp] theorem giveUndefined_out : (giveUndefined s).out = s.out := rfl
@[simp] theorem giveUndefined_params : (giveUndefined s).params = s.params := rfl
@[simp] theorem giveUndefined_inbox : (giveUndefined s).inbox = s.inbox := rfl
@[simp] theorem giveUndefined_answer : (giveUndefined s).answer = .element (Config.undefinedElement s.freeCount) := rfl
@[simp] theorem giveUndefined_freeCount : (giveUndefined s).freeCount = s.freeCount + 1 := rfl

end Sys2Proof.Machine
end

