-- ==== Sys2Proof/Laws/Memory.lean ====
section
/-!
SUPPORT. The laws of the packet buffer: a read after a write, the canonical form kept by every memory operation, and what a load
leaves at each address.
-/

namespace Sys2Proof.Machine

@[simp] theorem Memory.read_nil (a : Nat) : Memory.read [] a = none := rfl

theorem Memory.read_write_same (m : Memory) (a : Nat) (v : Byte) : (m.write a v).read a = some v := by
  induction m with
  | nil => simp [Memory.write, Memory.read]
  | cons c m ih =>
    obtain ⟨k, b⟩ := c
    simp only [Memory.write]
    split
    · simp [Memory.read]
    · split
      · simp [Memory.read]
      · rename_i h
        simp [Memory.read, h, ih]

theorem Memory.read_write_other (m : Memory) {a x : Nat} (v : Byte) (h : x ≠ a) : (m.write a v).read x = m.read x := by
  induction m with
  | nil => simp [Memory.write, Memory.read, h, Memory.unlisted]
  | cons c m ih =>
    obtain ⟨k, b⟩ := c
    simp only [Memory.write]
    split
    · simp [Memory.read, h]
    · split
      · rename_i hk
        subst hk
        simp [Memory.read, h]
      · simp [Memory.read, ih]

/-- Weakening the lower bound of a rising memory. -/
theorem Memory.wfFrom_mono {m : Memory} {l l' : Nat} (hl : l' ≤ l) (h : Memory.wfFrom l m = true) : Memory.wfFrom l' m = true := by
  cases m with
  | nil => rfl
  | cons c m =>
    obtain ⟨k, b⟩ := c
    simp only [Memory.wfFrom, Bool.and_eq_true, decide_eq_true_eq] at h ⊢
    exact ⟨⟨by omega, h.1.2⟩, h.2⟩

theorem Memory.wfFrom_write {m : Memory} {l a : Nat} (v : Byte) (hl : l ≤ a) (ha : a < Config.rxBufSize)
    (h : Memory.wfFrom l m = true) : Memory.wfFrom l (m.write a v) = true := by
  induction m generalizing l with
  | nil => simp [Memory.write, Memory.wfFrom, hl, ha]
  | cons c m ih =>
    obtain ⟨k, b⟩ := c
    simp only [Memory.wfFrom, Bool.and_eq_true, decide_eq_true_eq] at h
    obtain ⟨⟨h1, h2⟩, h3⟩ := h
    simp only [Memory.write]
    split
    · rename_i hk
      simp only [Memory.wfFrom, Bool.and_eq_true, decide_eq_true_eq]
      exact ⟨⟨hl, ha⟩, ⟨by omega, h2⟩, h3⟩
    · split
      · rename_i hk
        subst hk
        simp only [Memory.wfFrom, Bool.and_eq_true, decide_eq_true_eq]
        exact ⟨⟨hl, ha⟩, h3⟩
      · simp only [Memory.wfFrom, Bool.and_eq_true, decide_eq_true_eq]
        exact ⟨⟨h1, h2⟩, ih (by omega) h3⟩

/-- A write inside the buffer keeps the canonical form. -/
theorem Memory.wf_write {m : Memory} {a : Nat} (v : Byte) (ha : a < Config.rxBufSize) (h : m.wf = true) : (m.write a v).wf = true :=
  Memory.wfFrom_write v (Nat.zero_le a) ha h

/-- Writing consecutive bytes inside the buffer keeps the canonical form. -/
theorem Memory.wf_writeBytes {m : Memory} {a : Nat} (p : List Byte) (ha : a + p.length ≤ Config.rxBufSize) (h : m.wf = true) :
    (m.writeBytes a p).wf = true := by
  induction p generalizing m a with
  | nil => exact h
  | cons v p ih =>
    simp only [List.length_cons] at ha
    exact ih (by omega) (Memory.wf_write v (by omega) h)

/-- Writing consecutive bytes leaves every address outside them alone. -/
theorem Memory.read_writeBytes_outside (m : Memory) (a x : Nat) (p : List Byte) (h : x < a ∨ a + p.length ≤ x) :
    (m.writeBytes a p).read x = m.read x := by
  induction p generalizing m a with
  | nil => rfl
  | cons v p ih =>
    simp only [List.length_cons] at h
    rw [Memory.writeBytes, ih _ _ (by omega), Memory.read_write_other _ _ (by omega)]

/-- Writing consecutive bytes puts each at its address. -/
theorem Memory.read_writeBytes_inside (m : Memory) (a i : Nat) (p : List Byte) (h : i < p.length) :
    (m.writeBytes a p).read (a + i) = p[i]? := by
  induction p generalizing m a i with
  | nil => simp at h
  | cons v p ih =>
    cases i with
    | zero =>
      rw [Memory.writeBytes, Memory.read_writeBytes_outside _ _ _ _ (by omega)]
      simpa using Memory.read_write_same m a v
    | succ i =>
      simp only [List.length_cons] at h
      have := ih (m.write a v) (a + 1) i (by omega)
      rw [Memory.writeBytes, List.getElem?_cons_succ, ← this, show a + (i + 1) = a + 1 + i by omega]

/-- The memory of the reset state is in canonical form. -/
theorem Memory.wf_reset : State.reset.pkt.wf = true := rfl

end Sys2Proof.Machine
end

