-- ==== Sys2Proof/Laws/Ops.lean ====
section
/-!
SUPPORT. One lemma per shared operation that says once what it can do: the reads of the packet buffer on a state that holds a packet,
and on any state; the unpacking and the rendering of a line.
-/

namespace Sys2Proof.Machine

/-- The packet buffer's reads depend on `PKT` and `PKT_LEN` alone. -/
theorem State.memRead_congr {s t : State} (hp : t.pkt = s.pkt) (hl : t.pktLen = s.pktLen) (a : Nat) : t.memRead a = s.memRead a := by
  simp only [State.memRead, hp, hl]

theorem State.memReads_congr {s t : State} (hp : t.pkt = s.pkt) (hl : t.pktLen = s.pktLen) (a n : Nat) :
    t.memReads a n = s.memReads a n := by
  induction n generalizing a with
  | zero => rfl
  | succ n ih => simp only [State.memReads, State.memRead_congr hp hl, ih]

theorem State.readStartLine_congr {s t : State} (hp : t.pkt = s.pkt) (hl : t.pktLen = s.pktLen) :
    t.readStartLine = s.readStartLine := by
  simp only [State.readStartLine, State.memRead_congr hp hl]

theorem State.readSegment_congr {s t : State} (hp : t.pkt = s.pkt) (hl : t.pktLen = s.pktLen) (hb : t.params = s.params) (i : Nat) :
    t.readSegment i = s.readSegment i := by
  simp only [State.readSegment, State.memReads_congr hp hl, hb]

/-- A packet is short exactly when `PKT_LEN < 12`. -/
theorem State.shortPacket_iff {s : State} : s.shortPacket = true ↔ s.pktLen.toNat < 12 := by
  simp [State.shortPacket]

theorem State.not_shortPacket_iff {s : State} : s.shortPacket = false ↔ 12 ≤ s.pktLen.toNat := by
  simp [State.shortPacket]

/-- Segment `i` is complete exactly when its last byte is inside the packet. -/
theorem State.hasSegment_iff {s : State} {i : Nat} (h : 12 ≤ s.pktLen.toNat) :
    s.hasSegment i = true ↔ 12 + (i * s.params.bpl + s.params.bpl) ≤ s.pktLen.toNat := by
  simp only [State.hasSegment, segmentComplete, pixLen, decide_eq_true_eq, Config.headerSize]
  omega

/-- The selection test, on integers. -/
theorem targetInPacket_iff {s t : LineNo} : targetInPacket s t = true ↔ s.toNat ≤ t.toNat ∧ t.toNat < s.toNat + 4 := by
  simp [targetInPacket]

/-- A read of the packet buffer answers a byte exactly below `PKT_LEN` and where one has been written. -/
theorem State.memRead_eq_ok {s : State} {a : Nat} {b : Byte} :
    s.memRead a = .ok b ↔ a < s.pktLen.toNat ∧ s.pkt.read a = some b := by
  unfold State.memRead
  split
  · rename_i h
    cases s.pkt.read a <;> simp only [h, true_and, reduceCtorEq, Except.ok.injEq, Option.some.injEq]
  · rename_i h
    simp only [h, false_and, reduceCtorEq]

theorem State.HoldsPacket.memRead {s : State} {p : List Byte} (h : s.HoldsPacket p) {a : Nat} (ha : a < p.length) :
    s.memRead a = .ok p[a] := by
  rw [State.memRead_eq_ok]
  exact ⟨by rw [h.1]; exact ha, by rw [h.2 a ha, List.getElem?_eq_getElem ha]⟩

theorem State.HoldsPacket.memReads {s : State} {p : List Byte} (h : s.HoldsPacket p) {a n : Nat} (ha : a + n ≤ p.length) :
    s.memReads a n = .ok ((p.drop a).take n) := by
  induction n generalizing a with
  | zero => simp [State.memReads]
  | succ n ih =>
    have hlt : a < p.length := by omega
    rw [State.memReads, h.memRead hlt]
    simp only
    rw [ih (by omega), List.drop_eq_getElem_cons hlt, List.take_succ_cons]

theorem State.HoldsPacket.shortPacket {s : State} {p : List Byte} (h : s.HoldsPacket p) :
    s.shortPacket = decide (p.length < 12) := by
  simp [State.shortPacket, h.1, Config.headerSize]

theorem State.HoldsPacket.hasSegment {s : State} {p : List Byte} (h : s.HoldsPacket p) (i : Nat) :
    s.hasSegment i = decide (i * s.params.bpl + s.params.bpl ≤ p.length - 12) := by
  simp [State.hasSegment, segmentComplete, pixLen, h.1, Config.headerSize]

/-- A packet that fits is held after it is loaded. -/
theorem loaded_holdsPacket (s : State) (p : List Byte) (hp : p.length ≤ 2048) : (loaded p s).HoldsPacket p := by
  refine ⟨by simp; omega, fun a ha => ?_⟩
  simpa using Memory.read_writeBytes_inside s.pkt 0 a p ha

/-- The operation level's nibbles are the function level's (bits `[7:4]` and `[3:0]` against shift and mask). -/
theorem leftPixel_eq (b : Byte) : leftPixel b = (fSplit b).1 := by
  apply BitVec.eq_of_toNat_eq
  have := b.isLt
  simp [leftPixel, fSplit, Nat.shiftRight_eq_div_pow]

theorem rightPixel_eq (b : Byte) : rightPixel b = (fSplit b).2 := by
  apply BitVec.eq_of_toNat_eq
  have h : b.toNat &&& 15 = b.toNat % 16 := Nat.and_two_pow_sub_one_eq_mod b.toNat 4
  simp only [rightPixel, fSplit, BitVec.extractLsb'_toNat, BitVec.toNat_setWidth, BitVec.toNat_and]
  rw [show BitVec.toNat (15 : Byte) = 15 from rfl, h]
  simp

/-- Unpacking lane by lane is the function level's map over the bytes. -/
theorem unpackBytes_eq (bs : List Byte) : unpackBytes bs = bs.flatMap fun b => [(fSplit b).1, (fSplit b).2] := by
  induction bs with
  | nil => rfl
  | cons b bs ih => simp [unpackBytes, ih, leftPixel_eq, rightPixel_eq]

@[simp] theorem unpackBytes_length (bs : List Byte) : (unpackBytes bs).length = 2 * bs.length := by
  induction bs with
  | nil => rfl
  | cons b bs ih => simp [unpackBytes, ih]; omega

/-- A complete segment of a held packet is read whole and decoded as the function level decodes it. -/
theorem State.HoldsPacket.readSegment {s : State} {p : List Byte} (h : s.HoldsPacket p) {i : LineIdx}
    (hi : 12 + (i.toNat * s.params.bpl + s.params.bpl) ≤ p.length) :
    ∃ l, s.readSegment i.toNat = .ok l ∧ fDecodePixelLine s.params.bpl (pixelPayload p) i = some l ∧ l.length = 2 * s.params.bpl := by
  have hr := h.memReads (a := segmentStart s.params.bpl i.toNat) (n := s.params.bpl) (by simp [segmentStart, Config.headerSize]; omega)
  refine ⟨_, by rw [State.readSegment, hr], ?_, ?_⟩
  · have hn : i.toNat * s.params.bpl + s.params.bpl ≤ p.length - 12 := by omega
    simp [fDecodePixelLine, hn, unpackBytes_eq, segmentStart, pixelPayload, Config.headerSize]
  · simp [segmentStart, Config.headerSize]; omega

/-- The start line read from a held packet is the function level's. -/
theorem State.HoldsPacket.readStartLine {s : State} {p : List Byte} (h : s.HoldsPacket p) (hp : 12 ≤ p.length) :
    ∃ l, s.readStartLine = .ok l ∧ fDecodeHeader p = some l := by
  have h4 : 4 < p.length := by omega
  have h5 : 5 < p.length := by omega
  refine ⟨startLineOf (lineWord p[5] p[4]), ?_, ?_⟩
  · simp only [State.readStartLine, Config.lineFieldOffset, h.memRead h4, h.memRead h5]
  · simp only [fDecodeHeader, Nat.not_lt.mpr hp, ↓reduceIte, List.getElem?_eq_getElem h4, List.getElem?_eq_getElem h5,
      Option.some.injEq]
    apply BitVec.eq_of_getLsbD_eq
    intro k hk
    simp only [startLineOf, lineWord, Config.lineMask]
    interval_cases k <;> simp

/-- Rendering appends one record: the look-up of the line buffer. -/
theorem State.renderLine_eq_ok {s t : State} : s.renderLine = .ok t ↔ ∃ l, s.lineBuf = some l ∧ t = s.emit (lookUp s.params l) := by
  simp only [State.renderLine, State.readLine]
  cases s.lineBuf with
  | none => simp
  | some l => simp [eq_comm]

/-- `andThen` answers a next state exactly when the read answered a value and the rest answers that state. -/
theorem andThen_eq_next {α : Type} {r : Except Fault α} {k : α → Result} {t : State} :
    andThen r k = .next t ↔ ∃ x, r = .ok x ∧ k x = .next t := by
  cases r <;> simp [andThen]

end Sys2Proof.Machine
end

