-- ==== Sys2Proof/Laws/Reads.lean ====
section
/-!
SUPPORT. No write of a result register changes what the packet buffer answers: one lemma per update for each of the questions an
operation asks of the packet.
-/

namespace Sys2Proof.Machine

variable (s : State)

@[simp] theorem State.raise_shortPacket (c : Condition) : (s.raise c).shortPacket = s.shortPacket := rfl
@[simp] theorem State.raise_hasSegment (c : Condition) (k : Nat) : (s.raise c).hasSegment k = s.hasSegment k := rfl
@[simp] theorem State.raise_readStartLine (c : Condition) : (s.raise c).readStartLine = s.readStartLine :=
  State.readStartLine_congr (by simp) (by simp)
@[simp] theorem State.raise_readSegment (c : Condition) (k : Nat) : (s.raise c).readSegment k = s.readSegment k :=
  State.readSegment_congr (by simp) (by simp) (by simp) k

@[simp] theorem State.setEmitCnt_shortPacket (n : Nat) : (s.setEmitCnt n).shortPacket = s.shortPacket := rfl
@[simp] theorem State.setEmitCnt_hasSegment (n : Nat) (k : Nat) : (s.setEmitCnt n).hasSegment k = s.hasSegment k := rfl
@[simp] theorem State.setEmitCnt_readStartLine (n : Nat) : (s.setEmitCnt n).readStartLine = s.readStartLine :=
  State.readStartLine_congr (by simp) (by simp)
@[simp] theorem State.setEmitCnt_readSegment (n : Nat) (k : Nat) : (s.setEmitCnt n).readSegment k = s.readSegment k :=
  State.readSegment_congr (by simp) (by simp) (by simp) k

@[simp] theorem State.setHeader_shortPacket (l : LineNo) : (s.setHeader l).shortPacket = s.shortPacket := rfl
@[simp] theorem State.setHeader_hasSegment (l : LineNo) (k : Nat) : (s.setHeader l).hasSegment k = s.hasSegment k := rfl
@[simp] theorem State.setHeader_readStartLine (l : LineNo) : (s.setHeader l).readStartLine = s.readStartLine :=
  State.readStartLine_congr (by simp) (by simp)
@[simp] theorem State.setHeader_readSegment (l : LineNo) (k : Nat) : (s.setHeader l).readSegment k = s.readSegment k :=
  State.readSegment_congr (by simp) (by simp) (by simp) k

@[simp] theorem State.clearHeader_shortPacket : (s.clearHeader).shortPacket = s.shortPacket := rfl
@[simp] theorem State.clearHeader_hasSegment (k : Nat) : (s.clearHeader).hasSegment k = s.hasSegment k := rfl
@[simp] theorem State.clearHeader_readStartLine : (s.clearHeader).readStartLine = s.readStartLine :=
  State.readStartLine_congr (by simp) (by simp)
@[simp] theorem State.clearHeader_readSegment (k : Nat) : (s.clearHeader).readSegment k = s.readSegment k :=
  State.readSegment_congr (by simp) (by simp) (by simp) k

@[simp] theorem State.setSelection_shortPacket (i : LineIdx) : (s.setSelection i).shortPacket = s.shortPacket := rfl
@[simp] theorem State.setSelection_hasSegment (i : LineIdx) (k : Nat) : (s.setSelection i).hasSegment k = s.hasSegment k := rfl
@[simp] theorem State.setSelection_readStartLine (i : LineIdx) : (s.setSelection i).readStartLine = s.readStartLine :=
  State.readStartLine_congr (by simp) (by simp)
@[simp] theorem State.setSelection_readSegment (i : LineIdx) (k : Nat) : (s.setSelection i).readSegment k = s.readSegment k :=
  State.readSegment_congr (by simp) (by simp) (by simp) k

@[simp] theorem State.clearSelection_shortPacket : (s.clearSelection).shortPacket = s.shortPacket := rfl
@[simp] theorem State.clearSelection_hasSegment (k : Nat) : (s.clearSelection).hasSegment k = s.hasSegment k := rfl
@[simp] theorem State.clearSelection_readStartLine : (s.clearSelection).readStartLine = s.readStartLine :=
  State.readStartLine_congr (by simp) (by simp)
@[simp] theorem State.clearSelection_readSegment (k : Nat) : (s.clearSelection).readSegment k = s.readSegment k :=
  State.readSegment_congr (by simp) (by simp) (by simp) k

@[simp] theorem State.setLine_shortPacket (l : List ColorIndex) : (s.setLine l).shortPacket = s.shortPacket := rfl
@[simp] theorem State.setLine_hasSegment (l : List ColorIndex) (k : Nat) : (s.setLine l).hasSegment k = s.hasSegment k := rfl
@[simp] theorem State.setLine_readStartLine (l : List ColorIndex) : (s.setLine l).readStartLine = s.readStartLine :=
  State.readStartLine_congr (by simp) (by simp)
@[simp] theorem State.setLine_readSegment (l : List ColorIndex) (k : Nat) : (s.setLine l).readSegment k = s.readSegment k :=
  State.readSegment_congr (by simp) (by simp) (by simp) k

@[simp] theorem State.clearLine_shortPacket : (s.clearLine).shortPacket = s.shortPacket := rfl
@[simp] theorem State.clearLine_hasSegment (k : Nat) : (s.clearLine).hasSegment k = s.hasSegment k := rfl
@[simp] theorem State.clearLine_readStartLine : (s.clearLine).readStartLine = s.readStartLine :=
  State.readStartLine_congr (by simp) (by simp)
@[simp] theorem State.clearLine_readSegment (k : Nat) : (s.clearLine).readSegment k = s.readSegment k :=
  State.readSegment_congr (by simp) (by simp) (by simp) k

@[simp] theorem State.emit_shortPacket (r : Record) : (s.emit r).shortPacket = s.shortPacket := rfl
@[simp] theorem State.emit_hasSegment (r : Record) (k : Nat) : (s.emit r).hasSegment k = s.hasSegment k := rfl
@[simp] theorem State.emit_readStartLine (r : Record) : (s.emit r).readStartLine = s.readStartLine :=
  State.readStartLine_congr (by simp) (by simp)
@[simp] theorem State.emit_readSegment (r : Record) (k : Nat) : (s.emit r).readSegment k = s.readSegment k :=
  State.readSegment_congr (by simp) (by simp) (by simp) k

@[simp] theorem forgetResults_shortPacket : (forgetResults s).shortPacket = s.shortPacket := rfl
@[simp] theorem forgetResults_hasSegment (k : Nat) : (forgetResults s).hasSegment k = s.hasSegment k := rfl
@[simp] theorem forgetResults_readStartLine : (forgetResults s).readStartLine = s.readStartLine :=
  State.readStartLine_congr (by simp) (by simp)
@[simp] theorem forgetResults_readSegment (k : Nat) : (forgetResults s).readSegment k = s.readSegment k :=
  State.readSegment_congr (by simp) (by simp) (by simp) k

end Sys2Proof.Machine
end

