-- ==== Sys2Proof/Laws/Exec.lean ====
section
/-!
SUPPORT. One inversion lemma per meaning and per shared step of the composites: if it answers a next state, then which cases hold, and
what the next state is in each. Later proofs cite these and unfold no meaning.
-/

namespace Sys2Proof.Machine

theorem execHdr_cases {s t : State} (h : execHdr s = .next t) :
    (s.shortPacket = true ∧ t = (s.clearHeader.setEmitCnt 0).raise .shortPacket) ∨
    (s.shortPacket = false ∧ ∃ l, s.readStartLine = .ok l ∧ t = ((s.setHeader l).setEmitCnt 0).raise .ok) := by
  unfold execHdr at h
  split at h
  · rename_i hs
    exact .inl ⟨hs, by simpa using h.symm⟩
  · rename_i hs
    obtain ⟨l, hl, ht⟩ := andThen_eq_next.mp h
    exact .inr ⟨by simpa using hs, l, hl, by simpa using ht.symm⟩

theorem execSel_cases {s t : State} {g : LineNo} (h : execSel g s = .next t) :
    (s.hdrOk = false ∧ t = (s.clearSelection.setEmitCnt 0).raise .notReady) ∨
    (s.hdrOk = true ∧ targetInPacket s.startLine g = true ∧
      t = ((s.setSelection (selectedIdx s.startLine g)).setEmitCnt 0).raise .ok) ∨
    (s.hdrOk = true ∧ targetInPacket s.startLine g = false ∧ t = (s.clearSelection.setEmitCnt 0).raise .noMatch) := by
  unfold execSel at h
  split at h
  · rename_i hs
    exact .inl ⟨hs, by simpa using h.symm⟩
  · rename_i hs
    split at h
    · rename_i hg
      exact .inr (.inl ⟨by simpa using hs, hg, by simpa using h.symm⟩)
    · rename_i hg
      exact .inr (.inr ⟨by simpa using hs, by simpa using hg, by simpa using h.symm⟩)

theorem execPxl_cases {s t : State} {i : LineIdx} (h : execPxl i s = .next t) :
    (s.shortPacket = true ∧ t = (s.clearLine.setEmitCnt 0).raise .shortPacket) ∨
    (s.shortPacket = false ∧ s.hasSegment i.toNat = true ∧
      ∃ l, s.readSegment i.toNat = .ok l ∧ t = ((s.setLine l).setEmitCnt 0).raise .ok) ∨
    (s.shortPacket = false ∧ s.hasSegment i.toNat = false ∧ t = (s.clearLine.setEmitCnt 0).raise .insufficientData) := by
  unfold execPxl at h
  split at h
  · rename_i hs
    exact .inl ⟨hs, by simpa using h.symm⟩
  · rename_i hs
    split at h
    · rename_i hi
      obtain ⟨l, hl, ht⟩ := andThen_eq_next.mp h
      exact .inr (.inl ⟨by simpa using hs, hi, l, hl, by simpa using ht.symm⟩)
    · rename_i hi
      exact .inr (.inr ⟨by simpa using hs, by simpa using hi, by simpa using h.symm⟩)

theorem execRnd_cases {s t : State} (h : execRnd s = .next t) :
    (s.lineOk = false ∧ t = (s.setEmitCnt 0).raise .notReady) ∨
    (s.lineOk = true ∧ ∃ l, s.lineBuf = some l ∧ t = ((s.emit (lookUp s.params l)).setEmitCnt 1).raise .ok) := by
  unfold execRnd at h
  split at h
  · rename_i hs
    exact .inl ⟨hs, by simpa using h.symm⟩
  · rename_i hs
    obtain ⟨u, hu, ht⟩ := andThen_eq_next.mp h
    obtain ⟨l, hl, rfl⟩ := State.renderLine_eq_ok.mp hu
    exact .inr ⟨by simpa using hs, l, hl, by simpa using ht.symm⟩

/-- Unpacking and rendering segment `i` writes `LINE_BUF` and `LINE_OK` and appends the record of that line. -/
theorem unpackAndRender_eq_ok {i : Nat} {s t : State} :
    unpackAndRender i s = .ok t ↔ ∃ l, s.readSegment i = .ok l ∧ t = (s.setLine l).emit (lookUp s.params l) := by
  unfold unpackAndRender
  cases s.readSegment i with
  | error f => simp
  | ok l => simp [State.renderLine_eq_ok]

/-- What LIVE and MON can do: one case per condition, in the order tested (R179). -/
theorem liveBody_cases {s t : State} {g : LineNo} (h : liveBody g s = .next t) :
    (s.shortPacket = true ∧ t = (forgetResults s).clearHeader.raise .shortPacket) ∨
    (s.shortPacket = false ∧ ∃ l, s.readStartLine = .ok l ∧
      ((targetInPacket l g = false ∧ t = ((forgetResults s).setHeader l).raise .noMatch) ∨
       (targetInPacket l g = true ∧ s.hasSegment (selectedIdx l g).toNat = false ∧
          t = (((forgetResults s).setHeader l).setSelection (selectedIdx l g)).raise .insufficientData) ∨
       (targetInPacket l g = true ∧ s.hasSegment (selectedIdx l g).toNat = true ∧
          ∃ c, s.readSegment (selectedIdx l g).toNat = .ok c ∧
            t = ((((((forgetResults s).setHeader l).setSelection (selectedIdx l g)).setLine c).emit
                  (lookUp s.params c)).setEmitCnt 1).raise .ok))) := by
  unfold liveBody at h
  simp only [forgetResults_shortPacket, forgetResults_readStartLine] at h
  split at h
  · rename_i hs
    exact .inl ⟨hs, by simpa using h.symm⟩
  · rename_i hs
    obtain ⟨l, hl, ht⟩ := andThen_eq_next.mp h
    refine .inr ⟨by simpa using hs, l, hl, ?_⟩
    simp only [liveSelected, State.setHeader_startLine, State.setSelection_selIdx, State.setSelection_hasSegment,
      State.setHeader_hasSegment, forgetResults_hasSegment] at ht
    cases hg : targetInPacket l g with
    | false =>
      simp only [hg, Bool.false_eq_true, ↓reduceIte] at ht
      exact .inl ⟨rfl, by simpa using ht.symm⟩
    | true =>
      simp only [hg, ↓reduceIte] at ht
      cases hi : s.hasSegment (selectedIdx l g).toNat with
      | false =>
        simp only [hi, Bool.false_eq_true, ↓reduceIte] at ht
        exact .inr (.inl ⟨rfl, rfl, by simpa using ht.symm⟩)
      | true =>
        simp only [hi, ↓reduceIte] at ht
        obtain ⟨u, hu, ht⟩ := andThen_eq_next.mp ht
        obtain ⟨c, hc, rfl⟩ := unpackAndRender_eq_ok.mp hu
        exact .inr (.inr ⟨rfl, rfl, c, by simpa using hc, by simpa using ht.symm⟩)

/-- What one line of RPLY can do. -/
theorem replayLine_cases {i : LineIdx} {n : Nat} {s t : State} (h : replayLine i s = .ok (t, n)) :
    (s.hasSegment i.toNat = false ∧ n = 0 ∧ t = s.clearLine) ∨
    (s.hasSegment i.toNat = true ∧ n = 1 ∧ ∃ l, s.readSegment i.toNat = .ok l ∧ t = (s.setLine l).emit (lookUp s.params l)) := by
  unfold replayLine at h
  split at h
  · rename_i hi
    cases hu : unpackAndRender i.toNat s with
    | error f => simp [hu] at h
    | ok u =>
      simp only [hu, Except.ok.injEq, Prod.mk.injEq] at h
      obtain ⟨rfl, rfl⟩ := h
      exact .inr ⟨hi, rfl, unpackAndRender_eq_ok.mp hu⟩
  · rename_i hi
    simp only [Except.ok.injEq, Prod.mk.injEq] at h
    exact .inl ⟨by simpa using hi, h.2.symm, h.1.symm⟩

/-- The lines of RPLY, first and rest. -/
theorem replayLines_cons_eq_ok {i : LineIdx} {n : Nat} {is : List LineIdx} {s t : State} :
    replayLines (i :: is) s = .ok (t, n) ↔
      ∃ u k m, replayLine i s = .ok (u, k) ∧ replayLines is u = .ok (t, m) ∧ n = k + m := by
  simp only [replayLines]
  cases h1 : replayLine i s with
  | error f => simp
  | ok r =>
    cases h2 : replayLines is r.1 with
    | error f =>
      simp only [h2, reduceCtorEq, false_iff]
      rintro ⟨u, k, m, hu, hm, -⟩
      cases hu
      rw [h2] at hm
      cases hm
    | ok r' =>
      simp only [h2, Except.ok.injEq, Prod.mk.injEq]
      constructor
      · rintro ⟨rfl, rfl⟩
        exact ⟨r.1, r.2, r'.2, rfl, by rw [h2], rfl⟩
      · rintro ⟨u, k, m, hu, hm, rfl⟩
        subst hu
        rw [h2] at hm
        cases hm
        exact ⟨rfl, rfl⟩

/-- What any run of RPLY's lines changes: `LINE_BUF`, `LINE_OK` and `OUT` alone, and it counts the records it appends. -/
theorem replayLines_frame {is : List LineIdx} {s t : State} {n : Nat} (h : replayLines is s = .ok (t, n)) :
    ∃ rs, rs.length = n ∧ n ≤ is.length ∧
      t = { s with lineBuf := t.lineBuf, lineOk := t.lineOk, out := s.out ++ rs } := by
  induction is generalizing s n with
  | nil =>
    simp only [replayLines, Except.ok.injEq, Prod.mk.injEq] at h
    obtain ⟨rfl, rfl⟩ := h
    exact ⟨[], rfl, Nat.le_refl _, by simp⟩
  | cons i is ih =>
    obtain ⟨u, k, m, h1, h2, rfl⟩ := replayLines_cons_eq_ok.mp h
    obtain ⟨rs, rfl, hm, ht⟩ := ih h2
    rcases replayLine_cases h1 with ⟨-, rfl, rfl⟩ | ⟨-, rfl, l, -, rfl⟩
    · exact ⟨rs, by simp, by simp only [List.length_cons]; omega, ht⟩
    · refine ⟨lookUp s.params l :: rs, by simp [Nat.add_comm], by simp only [List.length_cons]; omega, ?_⟩
      rw [ht]
      simp [State.emit, State.setLine]

/-- What RPLY can do. -/
theorem execRply_cases {s t : State} (h : execRply s = .next t) :
    (s.shortPacket = true ∧ t = (forgetResults s).clearHeader.raise .shortPacket) ∨
    (s.shortPacket = false ∧ ∃ l u n, s.readStartLine = .ok l ∧
      replayLines [0, 1, 2, 3] ((forgetResults s).setHeader l) = .ok (u, n) ∧ t = finishReplay n u) := by
  unfold execRply at h
  simp only [forgetResults_shortPacket, forgetResults_readStartLine] at h
  split at h
  · rename_i hs
    exact .inl ⟨hs, by simpa using h.symm⟩
  · rename_i hs
    obtain ⟨l, hl, ht⟩ := andThen_eq_next.mp h
    obtain ⟨r, hr, ht⟩ := andThen_eq_next.mp ht
    exact .inr ⟨by simpa using hs, l, r.1, r.2, hl, hr, by simpa using ht.symm⟩

end Sys2Proof.Machine
end

