-- ==== Sys2Proof/Laws/PerInstr.lean ====
section
/-!
SUPPORT. Statements made for every instruction, one lemma per constructor. Family `Fields`: what the three fields of an instruction's
word hold (spec/30_encoding.md rules R84 and R87).
-/

namespace Sys2Proof

/-- The fields of a word put together from three fields are those fields. -/
theorem fields_commandWord (op : BitVec 3) (idx : LineIdx) (target : LineNo) :
    opField (commandWord op idx target) = op ∧ idxField (commandWord op idx target) = idx ∧
      targetField (commandWord op idx target) = target := by
  refine ⟨?_, ?_, ?_⟩ <;> apply BitVec.eq_of_getLsbD_eq <;> intro k hk <;>
    simp only [opField, idxField, targetField, commandWord, BitVec.getLsbD_extractLsb', BitVec.getLsbD_append] <;>
    interval_cases k <;> simp

namespace Laws.Fields

/-- The word of an instruction has the operation's number in `op`, its operands in their fields, and zero in a field it does not use. -/
def Statement : Instr → Prop
  | .hdr => opField (encode .hdr) = 0 ∧ idxField (encode .hdr) = 0 ∧ targetField (encode .hdr) = 0
  | .sel t => opField (encode (.sel t)) = 1 ∧ idxField (encode (.sel t)) = 0 ∧ targetField (encode (.sel t)) = t
  | .pxl i => opField (encode (.pxl i)) = 2 ∧ idxField (encode (.pxl i)) = i ∧ targetField (encode (.pxl i)) = 0
  | .rnd => opField (encode .rnd) = 3 ∧ idxField (encode .rnd) = 0 ∧ targetField (encode .rnd) = 0
  | .live t => opField (encode (.live t)) = 4 ∧ idxField (encode (.live t)) = 0 ∧ targetField (encode (.live t)) = t
  | .rply => opField (encode .rply) = 5 ∧ idxField (encode .rply) = 0 ∧ targetField (encode .rply) = 0
  | .mon => opField (encode .mon) = 4 ∧ idxField (encode .mon) = 0 ∧ targetField (encode .mon) = 136

theorem hdr : Statement .hdr := fields_commandWord _ _ _
theorem sel (t : LineNo) : Statement (.sel t) := fields_commandWord _ _ _
theorem pxl (i : LineIdx) : Statement (.pxl i) := fields_commandWord _ _ _
theorem rnd : Statement .rnd := fields_commandWord _ _ _
theorem live (t : LineNo) : Statement (.live t) := fields_commandWord _ _ _
theorem rply : Statement .rply := fields_commandWord _ _ _
theorem mon : Statement .mon := fields_commandWord _ _ _

end Laws.Fields

end Sys2Proof
end

