-- ==== Sys2Proof/Tests/Slice0.lean ====
section
/-!
SUPPORT. The model's own tests. Expected values are those of spec/95_test_vectors.md (named V-… or P… there) or of a rule's own example,
taken with `BPL = 2`. The second half shows, for every statement that has hypotheses, a concrete input that meets all of them.
-/

namespace Sys2Proof.Tests

open Sys2Proof.Machine

/-! ## Helpers -/

/-- Parameters with `BPL = 2`; glyph `c` is `0x30 + c` but for the two entries the spec pins. -/
def smallParams : Config.Params where
  bpl := 2
  palette := #v[0x30, 0x31, 0x32, 0x33, 0x34, 0x47, 0x36, 0x37, 0x38, 0x39, 0x72, 0x3B, 0x3C, 0x3D, 0x3E, 0x3F]

/-- The state after reset, with those parameters. -/
def start : State := { State.reset with params := smallParams }

/-- The header `H(s)` of the vectors for a start line below 256, bit 7 of byte 5 given. -/
def header (line top : Byte) : List Byte := [0, 0, 0, 0, line, top, 0, 0, 0, 0, 0, 0]

/-- The vectors' packet `Q`. -/
def packetQ : List Byte := header 134 0 ++ [0x12, 0x12, 0xA5, 0xA5, 0xF0, 0xF0, 0x0F, 0x0F]

/-- The state right after a load. -/
def holding (p : List Byte) : State := loaded p start

/-- A state with a decoded start line. -/
def headed (l : LineNo) : State := { start with startLine := l, hdrOk := true }

/-- A state with a decoded line. -/
def lined (l : List ColorIndex) : State := { start with lineBuf := some l, lineOk := true }

/-- One question about the state a result answers. -/
def ask {α : Type} (f : State → α) (r : Result) : Option α := (nextOf r).map f

/-! ## Well-formedness and the assembler -/

theorem test_wellFormed_refuses_pseudo : Instr.wellFormed .mon = false := by decide

theorem test_wellFormed_accepts_live : Instr.wellFormed (.live 32767) = true := by decide

theorem test_assemble_refuses_missing_operand : readText ['S', 'E', 'L'] = none := by decide

theorem test_assemble_refuses_superfluous_operand : readText ['H', 'D', 'R', ' ', '1'] = none := by decide

theorem test_assemble_refuses_idx_4 : readText ['P', 'X', 'L', ' ', '4'] = none := by decide

theorem test_assemble_refuses_target_32768 : readText ['S', 'E', 'L', ' ', '3', '2', '7', '6', '8'] = none := by decide

theorem test_assemble_refuses_unknown : readText ['N', 'O', 'P'] = none := by decide

/-- `LIVE 0x88 -- wanted` is the word 0x80088 (V-CMD-9). -/
theorem test_assemble_live_hex :
    readText (['L', 'I', 'V', 'E', ' ', '0', 'x', '8', '8'] ++ [' ', '-', '-', ' ', 'w']) = some (.command 0x80088) := by decide

theorem test_assemble_mon : readText ['M', 'O', 'N'] = some (.command 0x80088) := by decide

theorem test_directive_load : readText ['.', 'l', 'o', 'a', 'd', ' ', '9', ' ', '0', 'x', 'A', '5'] = some (.load [9, 0xA5]) := by
  decide

theorem test_directive_read : readText ['.', 'r', 'e', 'a', 'd', ' ', 'S', 'T', 'A', 'T', 'U', 'S'] = some (.readReg 0 0) := by
  decide

/-! ## Decoding: words written out bit by bit from R87's patterns -/

/-- V-CMD-1. -/
theorem test_decode_hdr : decode 0b00000000000000000000 = .ok .hdr := by decide

/-- V-CMD-3. -/
theorem test_decode_sel : decode 0b00100111111111111111 = .ok (.sel 32767) := by decide

/-- V-CMD-5. -/
theorem test_decode_pxl : decode 0b01001000000000000000 = .ok (.pxl 1) := by decide

/-- V-CMD-8. -/
theorem test_decode_rnd : decode 0b01100000000000000000 = .ok .rnd := by decide

/-- V-CMD-10. -/
theorem test_decode_live : decode 0b10000000000100001111 = .ok (.live 271) := by decide

/-- V-CMD-11. -/
theorem test_decode_rply : decode 0b10100000000000000000 = .ok .rply := by decide

/-- V-CMD-9: the word of MON is that of LIVE 136. -/
theorem test_decode_mon : encode .mon = 0b10000000000010001000 ∧ decodeTableWord 24 0x80088 = some (.live 136) := by decide

/-- V-CMD-13. -/
theorem test_decode_reserved : decode 0b11100000000000000000 = .error (.reservedOp 7) := by decide

/-- V-CMD-15 and V-CMD-16. -/
theorem test_decode_unused_idx :
    decode 0b10101000000000000000 = .error (.unusedIdx 1) ∧ decode 0b00101000000010001000 = .error (.unusedIdx 1) := by decide

/-- A padding bit above bit 19 makes a table word no command (log 10). -/
theorem test_decode_padding : decodeTableWord 24 0x100000 = none := by decide

/-! ## One step of each instruction -/

/-- V-HDR-6: byte 4 is the low byte, the reserved bit is dropped. -/
theorem test_hdr_little_endian : ask (fun t => (t.startLine, t.hdrOk, t.code)) (exec .hdr (holding (header 0x34 0x92))) =
    some (4660, true, 0) := by decide

/-- V-HDR-12: 11 bytes. -/
theorem test_hdr_short : ask (fun t => (t.startLine, t.hdrOk, t.status)) (exec .hdr (holding ((header 1 0).take 11))) =
    some (0, false, 0x008) := by decide

/-- V-SEL-12 and V-SEL-13: no wrap-around. -/
theorem test_sel_no_wrap :
    ask (fun t => (t.matched, t.selIdx, t.code)) (exec (.sel 32767) (headed 32766)) = some (true, 1, 0) ∧
    ask (fun t => (t.matched, t.selIdx, t.code)) (exec (.sel 0) (headed 32766)) = some (false, 0, 2) := by decide

/-- V-SEL-7 and V-SEL-8: the last line of a packet, and the one after it. -/
theorem test_sel_edges :
    ask (fun t => (t.matched, t.selIdx, t.code)) (exec (.sel 136) (headed 133)) = some (true, 3, 0) ∧
    ask (fun t => (t.matched, t.selIdx, t.code)) (exec (.sel 136) (headed 132)) = some (false, 0, 2) := by decide

/-- V-PXL-2 and V-PXL-3: the segment's own bytes, high nibble first. -/
theorem test_pxl_segments :
    ask (fun t => (t.lineBuf, t.lineOk, t.code)) (exec (.pxl 1) (holding packetQ)) = some (some [10, 5, 10, 5], true, 0) ∧
    ask (fun t => (t.lineBuf, t.lineOk, t.code)) (exec (.pxl 2) (holding packetQ)) = some (some [15, 0, 15, 0], true, 0) := by
  decide

/-- V-PXL-8: a segment that lacks its last byte. -/
theorem test_pxl_incomplete : ask (fun t => (t.lineBuf, t.lineOk, t.status)) (exec (.pxl 0) (holding (header 0 0 ++ [0x77]))) =
    some (none, false, 0x018) := by decide

/-- V-RND-1. -/
theorem test_rnd_glyphs : ask (fun t => (t.out, t.emitCnt, t.code)) (exec .rnd (lined [10, 5, 10, 5])) =
    some ([[0x72, 0x47, 0x72, 0x47]], 1, 0) := by decide

/-- V-RND-5. -/
theorem test_rnd_not_ready : ask (fun t => (t.out, t.emitCnt, t.code)) (exec .rnd start) = some ([], 0, 4) := by decide

/-- V-LIVE-5. -/
theorem test_live_second_line : ask (fun t => (t.out, t.status)) (exec (.live 135) (holding packetQ)) =
    some ([[0x72, 0x47, 0x72, 0x47]], 0x047) := by decide

/-- V-LIVE-7: the selected segment lacks one byte. -/
theorem test_live_incomplete : ask (fun t => (t.out, t.status, t.selIdx)) (exec (.live 137) (holding (header 136 0 ++ [0, 0, 0]))) =
    some ([], 0x01B, 1) := by decide

/-- V-RPLY-1. -/
theorem test_rply_all : ask (fun t => (t.out.map fun r => r.take 2, t.status, t.lineBuf)) (exec .rply (holding packetQ)) =
    some ([[0x31, 0x32], [0x72, 0x47], [0x3F, 0x30], [0x30, 0x3F]], 0x105, some [0, 15, 0, 15]) := by decide

/-- V-RPLY-2. -/
theorem test_rply_partial : ask (fun t => (t.out.length, t.status, t.lineBuf)) (exec .rply (holding (packetQ.take 17))) =
    some (2, 0x099, none) := by decide

/-- V-LIVE-4 by its other spelling. -/
theorem test_mon : ask (fun t => (t.out, t.startLine, t.selIdx)) (exec .mon (holding packetQ)) =
    some ([[0x3F, 0x30, 0x3F, 0x30]], 134, 2) := by decide

/-! ## One step of the machine -/

/-- V-LIVE-4, presented on the command port. -/
theorem test_step_command : ask (fun t => (t.status, t.inbox)) (step ((holding packetQ).withFetchWord 24 0x80088)) =
    some (0x047, []) := by decide

/-- V-CMD-14. -/
theorem test_step_illegal : ask (fun t => (t.code, t.emitCnt, t.startLine)) (step ((headed 136).withFetchWord 24 0x00001)) =
    some (5, 0, 136) := by decide

/-- V-LOAD-1: a load clears the results and keeps `OUT`. -/
theorem test_step_load : ask (fun t => (t.status, t.pktLen, t.out, t.memRead 1))
    (step ({ lined [0, 0, 0, 0] with out := [[0x30]], emitCnt := 1 }.present (.load [7, 8]))) =
    some (0, 2, [[0x30]], .ok 8) := by decide

/-- P1, step 4. -/
theorem test_step_drain : ask (fun t => (t.out, t.answer)) (step ({ start with out := [[1], [2]] }.present .drain)) =
    some ([[2]], .record [1]) := by decide

/-- P5, step 12: `STATUS` as the host reads it. -/
theorem test_step_status : ask (fun t => t.answer)
    (step ({ start with hdrOk := true, matched := true, code := 4 }.present (.readReg 0 0))) = some (.status 0x023) := by decide

/-- V-RST-1. -/
theorem test_step_reset : ask (fun t => (t.status, t.pktLen, t.lineBuf, t.out))
    (step ({ lined [0] with pktLen := 5, out := [[1]] }.present .reset)) = some (0, 0, none, []) := by decide

/-! ## Witnesses: an input that meets the hypotheses of each statement -/

/-- A memory that holds a packet in its first bytes. -/
def memoryOf (p : List Byte) : Memory := Memory.writeBytes [] 0 p

/-- A packet of exactly 2048 bytes, and one byte more. -/
def longPacket (n : Nat) : List Byte := List.replicate n 0x55

theorem longPacket_length (n : Nat) : (longPacket n).length = n := List.length_replicate

theorem holds (p : List Byte) (h : p.length ≤ 2048) : (holding p).HoldsPacket p := loaded_holdsPacket start p h

theorem witness_DecodeOfEncodeIsTheInstruction : Instr.wellFormed (.sel 0) = true ∧ Instr.wellFormed (.pxl 3) = true := by decide

theorem witness_EncodeOfDecodeIsTheWord : decode 0x8010F = .ok (.live 271) := by decide

theorem witness_DecodeFollowsTheOpcodeTable : decode 0x58000 = .ok (.pxl 3) ∧
    ∃ r ∈ opcodeRows, r.holds 0x58000 = true := ⟨by decide, ⟨"PXL", 0x40000, 0xE7FFF⟩, by decide, by decide⟩

theorem witness_AssemblerRoundTrip : assemble ⟨['L', 'I', 'V', 'E'], some 32767⟩ = some (.live 32767) := by decide

theorem witness_StepRunsTheDecodedCommand :
    ((holding packetQ).present (.command 0xA0000)).inbox = .command 0xA0000 :: [] ∧ decode 0xA0000 = .ok .rply ∧
    decodeTableWord 24 0xA0000 = some .rply := by decide

theorem witness_IllegalCommandOnlySetsCode :
    ((headed 9).present (.command 0xC0000)).inbox = .command 0xC0000 :: [] ∧ decode 0xC0000 = .error (.reservedOp 6) := by decide

theorem witness_IdleKeepsAllState : start.inbox = [] := by decide

/-- The empty packet and the longest one that can be loaded. -/
theorem witness_LoadStoresThePacket :
    (start.present (.load [])).inbox = .load [] :: [] ∧ ([] : List Byte).length ≤ 2048 ∧
    (start.present (.load (longPacket 2048))).inbox = .load (longPacket 2048) :: [] ∧ (longPacket 2048).length ≤ 2048 :=
  ⟨rfl, Nat.zero_le _, rfl, Nat.le_of_eq (longPacket_length _)⟩

theorem witness_ResetPutsEveryRegisterToItsValue : ((headed 9).present .reset).inbox = .reset :: [] := by decide

/-- Every register of the port; the last element of `LINE_BUF` (`k = 3`, `BPL = 2`). -/
theorem witness_ReadPortShowsTheRegisters :
    (start.present (.readReg 0 0)).inbox = .readReg 0 0 :: [] ∧ (start.present (.readReg 1 0)).inbox = .readReg 1 0 :: [] ∧
    (start.present (.readReg 2 0)).inbox = .readReg 2 0 :: [] ∧ (start.present (.readReg 3 0)).inbox = .readReg 3 0 :: [] ∧
    ((lined [1, 2, 3, 4]).present (.readReg 4 3)).inbox = .readReg 4 3 :: [] ∧ (lined [1, 2, 3, 4]).lineOk = true ∧
    (lined [1, 2, 3, 4]).lineBuf = some [1, 2, 3, 4] ∧ 3 < 2 * (lined [1, 2, 3, 4]).params.bpl ∧
    ([1, 2, 3, 4] : List ColorIndex)[3]? = some 4 := by decide

theorem witness_InvalidLineReadChangesNoRegister :
    (start.present (.readReg 4 3)).inbox = .readReg 4 3 :: [] ∧ start.lineOk = false ∧ 3 < 2 * start.params.bpl := by decide

/-- The first number that names no register; the first element that does not exist; the shortest packet that is too long. -/
theorem witness_HostMisuseStops :
    (start.present (.readReg 5 0)).inbox = .readReg 5 0 :: [] ∧ 5 ≤ 5 ∧
    (start.present (.readReg 4 4)).inbox = .readReg 4 4 :: [] ∧ 2 * start.params.bpl ≤ 4 ∧
    (start.present (.load (longPacket 2049))).inbox = .load (longPacket 2049) :: [] ∧ 2048 < (longPacket 2049).length :=
  ⟨rfl, Nat.le_refl _, rfl, Nat.le_refl _, rfl, by rw [longPacket_length]; exact Nat.lt_succ_self _⟩

theorem witness_DrainRemovesTheOldestRecord :
    ({ start with out := [[1], [2]] }.present .drain).inbox = .drain :: [] ∧
    ({ start with out := [[1], [2]] }.present .drain).out = [1] :: [[2]] ∧
    (start.present .drain).inbox = .drain :: [] ∧ (start.present .drain).out = [] := by decide

theorem witness_ParametersNeverChange : ∃ t, step ((headed 9).present .reset) = .next t := ⟨_, rfl⟩

/-- 11 bytes; exactly 12; a packet whose header decodes, and one whose header does not. -/
theorem witness_HdrDecodesTheStartLine :
    (holding ((header 1 0).take 11)).pktLen.toNat < 12 ∧
    12 ≤ (holding (header 1 0x80)).pktLen.toNat ∧ (holding (header 1 0x80)).pkt.read 4 = some 1 ∧
    (holding (header 1 0x80)).pkt.read 5 = some 0x80 ∧
    (holding (header 1 0x80)).HoldsPacket (header 1 0x80) ∧ fDecodeHeader (header 1 0x80) = some 1 ∧
    (holding []).HoldsPacket [] ∧ fDecodeHeader [] = none :=
  ⟨by decide, by decide, by decide, by decide, holds _ (by decide), by decide, holds _ (by decide), by decide⟩

/-- The four boundary targets of a packet that starts at 200, and no header. -/
theorem witness_SelFindsTheLineIndex :
    start.hdrOk = false ∧ (headed 200).hdrOk = true ∧
    ((headed 200).startLine.toNat ≤ (200 : LineNo).toNat ∧ (200 : LineNo).toNat < (headed 200).startLine.toNat + 4) ∧
    ((headed 200).startLine.toNat ≤ (203 : LineNo).toNat ∧ (203 : LineNo).toNat < (headed 200).startLine.toNat + 4) ∧
    ¬ ((headed 200).startLine.toNat ≤ (199 : LineNo).toNat ∧ (199 : LineNo).toNat < (headed 200).startLine.toNat + 4) ∧
    ¬ ((headed 200).startLine.toNat ≤ (204 : LineNo).toNat ∧ (204 : LineNo).toNat < (headed 200).startLine.toNat + 4) := by decide

/-- 11 bytes; 12 bytes; one byte short of segment 3; exactly four segments. -/
theorem witness_PxlUnpacksOneSegment :
    (holding ((header 1 0).take 11)).pktLen.toNat < 12 ∧
    (12 ≤ (holding (header 1 0)).pktLen.toNat ∧ (holding (header 1 0)).pktLen.toNat < 12 + ((0 : LineIdx).toNat * 2 + 2)) ∧
    (holding (packetQ.take 19)).pktLen.toNat < 12 + ((3 : LineIdx).toNat * 2 + 2) ∧
    12 + ((3 : LineIdx).toNat * 2 + 2) ≤ (holding packetQ).pktLen.toNat ∧ (holding packetQ).params.bpl = 2 ∧
    (holding packetQ).pkt.read 18 = some 0x0F ∧ (holding packetQ).pkt.read 19 = some 0x0F ∧
    (holding packetQ).HoldsPacket packetQ ∧ 12 ≤ packetQ.length ∧
    fDecodePixelLine 2 (pixelPayload packetQ) 3 = some [0, 15, 0, 15] ∧
    (holding (packetQ.take 19)).HoldsPacket (packetQ.take 19) ∧ 12 ≤ (packetQ.take 19).length ∧
    fDecodePixelLine 2 (pixelPayload (packetQ.take 19)) 3 = none :=
  ⟨by decide, by decide, by decide, by decide, by decide, by decide, by decide, holds _ (by decide), by decide, by decide,
    holds _ (by decide), by decide, by decide⟩

theorem witness_RndEmitsTheLine :
    start.lineOk = false ∧ (lined [1, 2, 3, 15]).lineOk = true ∧ (lined [1, 2, 3, 15]).lineBuf = some [1, 2, 3, 15] ∧
    ([1, 2, 3, 15] : List ColorIndex).length = 2 * (lined [1, 2, 3, 15]).params.bpl := by decide

/-- One packet for each of LIVE's four outcomes. -/
theorem witness_LiveRendersTheWantedLine :
    ((holding []).HoldsPacket [] ∧ ([] : List Byte).length < 12) ∧
    ((holding (header 200 0)).HoldsPacket (header 200 0) ∧ fDecodeHeader (header 200 0) = some 200 ∧ fSelectLine 200 136 = none) ∧
    ((holding (header 133 0)).HoldsPacket (header 133 0) ∧ fDecodeHeader (header 133 0) = some 133 ∧
      fSelectLine 133 136 = some 3 ∧ fDecodePixelLine 2 (pixelPayload (header 133 0)) 3 = none) ∧
    ((holding packetQ).HoldsPacket packetQ ∧ fDecodeHeader packetQ = some 134 ∧ fSelectLine 134 136 = some 2 ∧
      fDecodePixelLine 2 (pixelPayload packetQ) 2 = some [15, 0, 15, 0]) :=
  ⟨⟨holds _ (by decide), by decide⟩, ⟨holds _ (by decide), by decide, by decide⟩,
    ⟨holds _ (by decide), by decide, by decide, by decide⟩, ⟨holds _ (by decide), by decide, by decide, by decide⟩⟩

/-- The start lines 132 and 137 (outside), 136 without pixels, 133 with all four lines. -/
theorem witness_MonRendersLine136 :
    ((holding (header 132 0)).HoldsPacket (header 132 0) ∧ fDecodeHeader (header 132 0) = some 132) ∧
    ((holding (header 137 0)).HoldsPacket (header 137 0) ∧ fDecodeHeader (header 137 0) = some 137) ∧
    ((holding (header 136 0)).HoldsPacket (header 136 0) ∧ fDecodeHeader (header 136 0) = some 136 ∧
      fDecodePixelLine 2 (pixelPayload (header 136 0)) (BitVec.ofNat 2 (136 - 136)) = none) ∧
    ((holding (header 133 0 ++ packetQ.drop 12)).HoldsPacket (header 133 0 ++ packetQ.drop 12) ∧
      fDecodeHeader (header 133 0 ++ packetQ.drop 12) = some 133 ∧
      fDecodePixelLine 2 (pixelPayload (header 133 0 ++ packetQ.drop 12)) (BitVec.ofNat 2 (136 - 133)) = some [0, 15, 0, 15]) :=
  ⟨⟨holds _ (by decide), by decide⟩, ⟨holds _ (by decide), by decide⟩, ⟨holds _ (by decide), by decide, by decide⟩,
    ⟨holds _ (by decide), by decide, by decide⟩⟩

theorem witness_RplyRendersEveryCompleteLine :
    ((holding []).HoldsPacket [] ∧ ([] : List Byte).length < 12) ∧
    ((holding (packetQ.take 17)).HoldsPacket (packetQ.take 17) ∧ fDecodeHeader (packetQ.take 17) = some 134) :=
  ⟨⟨holds _ (by decide), by decide⟩, ⟨holds _ (by decide), by decide⟩⟩

theorem witness_RplyCountsTheCompleteLines :
    (holding packetQ).HoldsPacket packetQ ∧ 12 ≤ packetQ.length ∧ 0 < (holding packetQ).params.bpl ∧
      ∃ t, exec .rply (holding packetQ) = .next t :=
  ⟨holds _ (by decide), by decide, by decide, _, rfl⟩

theorem witness_ShortPacketOutcome :
    start.pktLen.toNat < 12 ∧ (holding ((header 1 0).take 11)).pktLen.toNat < 12 ∧
    ∃ t, exec .rply start = .next t ∧ t.code = 1 := ⟨by decide, by decide, _, rfl, rfl⟩

theorem witness_NotReadyExactlyWhenNoValue :
    start.hdrOk = false ∧ start.lineOk = false ∧ ∃ t, exec .rnd start = .next t ∧ t.code = 4 := ⟨rfl, rfl, _, rfl, rfl⟩

theorem witness_CodesAndTheirCauses :
    (holding packetQ).HoldsPacket packetQ ∧ (∃ t, exec (.live 140) (holding packetQ) = .next t) ∧
    ((headed 9).present (.command 0xC0000)).inbox = .command 0xC0000 :: [] ∧
    ∃ t, step ((headed 9).present (.command 0xC0000)) = .next t := ⟨holds _ (by decide), ⟨_, rfl⟩, rfl, _, rfl⟩

/-- A length without bytes; a header that lacks byte 4; a header without the segment after it; a flag without a line, on which RND
faults. -/
theorem witness_UnreachableStatesStop :
    (12 ≤ ({ start with pktLen := 12 } : State).pktLen.toNat ∧ ({ start with pktLen := 12 } : State).pkt.read 5 = none) ∧
    (({ start with pkt := [(5, 1)], pktLen := 12 } : State).pkt.read 5 = some 1 ∧
      ({ start with pkt := [(5, 1)], pktLen := 12 } : State).pkt.read 4 = none) ∧
    (0 < start.params.bpl ∧ 12 + ((0 : LineIdx).toNat * 2 + 2) ≤ ({ start with pktLen := 14 } : State).pktLen.toNat ∧
      ({ start with pktLen := 14 } : State).pkt.read (12 + (0 : LineIdx).toNat * 2) = none) ∧
    (({ start with lineOk := true } : State).lineOk = true ∧ ({ start with lineOk := true } : State).lineBuf = none) ∧
    ∃ f, exec .rnd { start with lineOk := true } = .fault f :=
  ⟨by decide, by decide, by decide, by decide, _, rfl⟩

theorem witness_NoOperationWritesThePacket : ∃ t, exec (.pxl 3) (holding packetQ) = .next t := ⟨_, rfl⟩

/-- Each row of R31's table has a state on which the operation answers. -/
theorem witness_WhatEachOperationWrites :
    (∃ t, exec .hdr (holding packetQ) = .next t) ∧ (∃ t, exec (.sel 136) (headed 136) = .next t) ∧
    (∃ t, exec (.pxl 0) (holding packetQ) = .next t) ∧ (∃ t, exec .rnd (lined [1, 2, 3, 4]) = .next t) ∧
    (lined [1, 2, 3, 4]).lineOk = true ∧ (∃ t, exec .rnd start = .next t) ∧ start.lineOk = false ∧
    (∃ t, exec .mon (holding packetQ) = .next t) ∧ (∃ t, exec .rply (holding packetQ) = .next t) ∧
    (∃ t, illegalCommand (headed 9) = .next t) ∧ (∃ t, loadPacket [] (headed 9) = .next t) ∧
    ∃ t, resetBlock (headed 9) = .next t :=
  ⟨⟨_, rfl⟩, ⟨_, rfl⟩, ⟨_, rfl⟩, ⟨_, rfl⟩, rfl, ⟨_, rfl⟩, rfl, ⟨_, rfl⟩, ⟨_, rfl⟩, ⟨_, rfl⟩, ⟨_, rfl⟩, ⟨_, rfl⟩⟩

theorem witness_EmitCountIsTheRecordsAppended : ∃ t, exec .rply (holding packetQ) = .next t := ⟨_, rfl⟩

theorem witness_RepeatingAnOperation :
    (∃ t, exec (.sel 136) (headed 136) = .next t) ∧ (lined [1, 2, 3, 4]).lineOk = true ∧
      (lined [1, 2, 3, 4]).lineBuf = some [1, 2, 3, 4] := ⟨⟨_, rfl⟩, rfl, rfl⟩

/-- The last byte of a packet, and the first offset beyond it. -/
theorem witness_PacketReadsStayBelowItsLength :
    (holding packetQ).memRead 19 = .ok 0x0F ∧ (holding packetQ).pktLen.toNat ≤ 20 ∧
    (holding packetQ).HoldsPacket packetQ ∧ packetQ[19]? = some 0x0F :=
  ⟨by decide, by decide, holds _ (by decide), by decide⟩

theorem witness_HeaderFormula :
    ((header 1 0).take 11).length < 12 ∧ 12 ≤ (header 0xFF 0xFF).length ∧ (header 0xFF 0xFF)[4]? = some 0xFF ∧
      (header 0xFF 0xFF)[5]? = some 0xFF := by decide

theorem witness_PackedLinesDecodeBack :
    (1 ≤ 4 ∧ 4 ≤ 4 ∧ 3 < 4 ∧ (List.replicate 16 (9 : ColorIndex)).length = 2 * 2 * 4) ∧
    fDecodePixelLine 2 [0x12, 0xA5] 0 = some [1, 2, 10, 5] := by decide

theorem witness_BuiltPacketsDecodeBack : 4 ≤ 4 ∧ (List.replicate 16 (9 : ColorIndex)).length = 2 * 2 * 4 ∧ 3 < 4 := by decide

/-- Two payloads that differ only after their one complete segment. -/
theorem witness_CompleteLinesAreAPrefix :
    0 < 2 ∧ 0 < 4 ∧ 0 ≤ 1 ∧ fDecodePixelLine 2 [1] 0 = none ∧ ([1, 2, 9] : List Byte).length = ([1, 2, 3] : List Byte).length ∧
    ([1, 2, 9] : List Byte).take (completeLines 2 (12 + 3) * 2) = ([1, 2, 3] : List Byte).take (completeLines 2 (12 + 3) * 2) := by
  decide

theorem witness_CuttingAPacketChangesNothing : smallParams.wf = true ∧ 3 < 4 := by decide

theorem witness_ByteA5RendersAsRG : smallParams.wf = true := by decide

theorem witness_LiveRecordIsTheFusedLookUp :
    (holding packetQ).HoldsPacket packetQ ∧ ∃ t, exec (.live 135) (holding packetQ) = .next t ∧ t.emitCnt = 1 :=
  ⟨holds _ (by decide), _, rfl, rfl⟩

theorem witness_CompositesAgreeWithThePrimitives : packetQ.length ≤ 2048 := by decide

/-- A state in which every result register holds a value: what LIVE leaves of `Q`. -/
def busy : State :=
  { holding packetQ with
    startLine := 134, hdrOk := true, selIdx := 2, matched := true, lineBuf := some [15, 0, 15, 0], lineOk := true,
    out := [[0x3F, 0x30, 0x3F, 0x30]], emitCnt := 1 }

theorem busy_inv : busy.Inv where
  paramsOk := by decide
  bufferOk := ⟨by decide, by decide, packetQ, holds packetQ (by decide)⟩
  headerCleared := by unfold State.HeaderCleared; decide
  selectionCleared := by unfold State.SelectionCleared; decide
  lineCleared := by unfold State.LineCleared; decide
  matchNeedsHeader := by unfold State.MatchNeedsHeader; decide
  headerCurrent := fun _ => ⟨by decide, 134, 0, by decide, by decide, by decide⟩
  lineCurrent := fun _ => ⟨2, [15, 0, 15, 0], by decide, by decide, rfl, rfl, fun j hj => by
    have h : j = 0 ∨ j = 1 := by
      have : j < 2 := hj
      omega
    rcases h with rfl | rfl
    · exact ⟨0xF0, by decide, by decide, by decide⟩
    · exact ⟨0xF0, by decide, by decide, by decide⟩⟩
  outcomeInRange := by unfold State.OutcomeInRange; decide
  recordsWhole := by unfold State.RecordsWhole; decide

theorem witness_StepKeepsTheInvariant : busy.Inv ∧ ∃ t, step busy = .next t := ⟨busy_inv, _, rfl⟩

/-- With a host that keeps its duties: the longest load, an illegal word, the last element of `LINE_BUF`. -/
theorem witness_TheBlockNeverStops :
    busy.Inv ∧ State.Inv { busy with inbox := [.readReg 4 3, .command 0xFFFFF, .load [1, 2]] } ∧
    State.HostPermitted { busy with inbox := [.readReg 4 3, .command 0xFFFFF, .load [1, 2]] } :=
  ⟨busy_inv, ⟨busy_inv.1, busy_inv.2, busy_inv.3, busy_inv.4, busy_inv.5, busy_inv.6, busy_inv.7, busy_inv.8, busy_inv.9,
    busy_inv.10⟩, by unfold State.HostPermitted; decide⟩

theorem witness_NoWrongOutput : busy.Inv ∧ ∃ t, exec .rnd busy = .next t := ⟨busy_inv, _, rfl⟩

/-- `Q` with every reserved byte and the reserved bit changed. -/
def packetR : List Byte := [9, 9, 9, 9, 134, 0x80, 7, 7, 7, 7, 7, 7] ++ packetQ.drop 12

theorem witness_UninterpretedBytesInfluenceNothing :
    (holding packetQ).HoldsPacket packetQ ∧ State.HoldsPacket { holding packetQ with pkt := memoryOf packetR } packetR ∧
    SameButReserved packetQ packetR ∧ (holding packetQ).LineCleared := by
  refine ⟨holds _ (by decide), ?_, ?_, ?_⟩
  · unfold State.HoldsPacket; decide
  · unfold SameButReserved; decide
  · unfold State.LineCleared; decide

/-- An illegal word among legal ones stops no run of commands. -/
theorem test_runCommands_illegal : ask (fun t => (t.code, t.startLine, t.out.length))
    (runCommands [0x80088, 0xC0000] (holding packetQ)) = some (5, 134, 1) := by decide

/-- Two states that differ in every register and in what they hold. -/
theorem witness_NoCrossPacketMemory : packetQ.length ≤ 2048 ∧ busy.params = start.params := ⟨by decide, rfl⟩

theorem witness_LiveHostPrintsTheWantedLines : start.params.wf = true ∧ start.out = [] := by decide

theorem witness_ReplayHostPrintsEveryCompleteLine : (headed 9).params.wf = true ∧ (headed 9).out = [] := by decide

end Sys2Proof.Tests
end

section
/-!
Proofs of the statements about the scope (spec/00_scope.md): which parameters are admitted (R7, R8, R9), where `MemRead` is defined
(R12, R58), and that no step changes a parameter (R8, R21, R37). The last rests on what an operation, a register read and a drain
leave unchanged.
-/

namespace Sys2Proof.Config

/-- Entry 5 of the palette is the glyph of colour index 5. -/
theorem Params.glyph_five (p : Params) : p.glyph 5 = p.palette[5] := rfl

theorem Params.glyph_ten (p : Params) : p.glyph 10 = p.palette[10] := rfl

/-- A full packet fits the 2048-byte buffer exactly when `BPL <= 509` (R9): `12 + 4 * 509 = 2048`. -/
theorem Params.fullPacketLen_le_iff (p : Params) : p.fullPacketLen ≤ rxBufSize ↔ p.bpl ≤ 509 := by
  simp only [Params.fullPacketLen, headerSize, linesPerPacket, rxBufSize]
  omega

theorem Params.wf_iff (p : Params) :
    p.wf = true ↔ 1 ≤ p.bpl ∧ p.bpl ≤ 509 ∧ p.palette[5] = 0x47 ∧ p.palette[10] = 0x72 := by
  simp only [Params.wf, Bool.and_eq_true, decide_eq_true_eq, beq_iff_eq, Params.fullPacketLen_le_iff, Params.glyph_five,
    Params.glyph_ten, glyphG, glyphR, and_assoc, Nat.succ_le_iff]

/-- The machine's own parameters are admitted, whatever their open values are. -/
theorem params_wf : params.wf = true := by
  have hbpl : params.bpl ≤ 509 := bplLessOne.isLt
  exact params.wf_iff.mpr ⟨Nat.succ_pos _, hbpl, by simp [params], by simp [params]⟩

end Sys2Proof.Config

namespace Sys2Proof.Machine

/-- At and above `PKT_LEN` a read of the packet buffer stops (R12). -/
theorem State.memRead_beyond {s : State} {a : Nat} (h : s.pktLen.toNat ≤ a) : s.memRead a = .error (.beyondPacket a) := by
  rw [State.memRead, if_neg (Nat.not_lt.mpr h)]

/-- `t` has the packet, the parameters and the model's own fields of `s`: everything but the result registers and `OUT`. -/
structure State.SameInputs (s t : State) : Prop where
  pkt       : t.pkt = s.pkt
  pktLen    : t.pktLen = s.pktLen
  params    : t.params = s.params
  inbox     : t.inbox = s.inbox
  answer    : t.answer = s.answer
  freeCount : t.freeCount = s.freeCount

theorem liveBody_sameInputs {g : LineNo} {s t : State} (h : liveBody g s = .next t) : s.SameInputs t := by
  rcases liveBody_cases h with ⟨-, rfl⟩ | ⟨-, l, -, ⟨-, rfl⟩ | ⟨-, -, rfl⟩ | ⟨-, -, c, -, rfl⟩⟩
  all_goals constructor <;> simp

theorem execRply_sameInputs {s t : State} (h : execRply s = .next t) : s.SameInputs t := by
  rcases execRply_cases h with ⟨-, rfl⟩ | ⟨-, l, u, n, -, hu, rfl⟩
  · constructor <;> simp
  · obtain ⟨rs, -, -, hu⟩ := replayLines_frame hu
    rw [hu]
    constructor <;> simp

/-- An operation writes result registers and `OUT` alone (R31). -/
theorem exec_sameInputs {i : Instr} {s t : State} (h : exec i s = .next t) : s.SameInputs t := by
  cases i with
  | hdr =>
    rcases execHdr_cases h with ⟨-, rfl⟩ | ⟨-, l, -, rfl⟩
    all_goals constructor <;> simp
  | sel g =>
    rcases execSel_cases h with ⟨-, rfl⟩ | ⟨-, -, rfl⟩ | ⟨-, -, rfl⟩
    all_goals constructor <;> simp
  | pxl k =>
    rcases execPxl_cases h with ⟨-, rfl⟩ | ⟨-, -, l, -, rfl⟩ | ⟨-, -, rfl⟩
    all_goals constructor <;> simp
  | rnd =>
    rcases execRnd_cases h with ⟨-, rfl⟩ | ⟨-, l, -, rfl⟩
    all_goals constructor <;> simp
  | live g => exact liveBody_sameInputs h
  | rply => exact execRply_sameInputs h
  | mon => exact liveBody_sameInputs h

/-- A command, legal or not, writes result registers and `OUT` alone (R31, R176). -/
theorem runCommand_sameInputs {w : CmdWord} {s t : State} (h : runCommand w s = .next t) : s.SameInputs t := by
  unfold runCommand at h
  split at h
  · exact exec_sameInputs h
  · cases h
    exact ⟨rfl, rfl, rfl, rfl, rfl, rfl⟩

/-- A load that answers a state leaves the loaded packet with cleared results, and the packet fits the buffer (R33). -/
theorem loadPacket_eq_next {p : List Byte} {s t : State} :
    loadPacket p s = .next t ↔ p.length ≤ 2048 ∧ t = loaded p s := by
  unfold loadPacket
  split
  · rename_i hp
    simp [hp, eq_comm]
  · rename_i hp
    simp [hp]

/-- A read of an element of `LINE_BUF` gives an answer and may take a free value. -/
theorem readElement_frame {k : Nat} {s t : State} (h : readElement k s = .next t) :
    ∃ a c, t = { s with answer := a, freeCount := c } := by
  unfold readElement at h
  split at h
  · cases h
  · split at h
    · cases h
      exact ⟨_, _, rfl⟩
    · obtain ⟨l, -, h⟩ := andThen_eq_next.mp h
      split at h <;> cases h
      exact ⟨_, _, rfl⟩

/-- A register read changes no register (R28, R59). -/
theorem readRegister_frame {number k : Nat} {s t : State} (h : readRegister number k s = .next t) :
    ∃ a c, t = { s with answer := a, freeCount := c } := by
  unfold readRegister at h
  split at h
  case h_5 => exact readElement_frame h
  case h_6 => cases h
  all_goals
    cases h
    exact ⟨_, _, rfl⟩

/-- A drain changes `OUT` and the answer alone (R29). -/
theorem drainRecord_frame {s t : State} (h : drainRecord s = .next t) : ∃ a o, t = { s with answer := a, out := o } := by
  unfold drainRecord at h
  split at h
  all_goals
    cases h
    exact ⟨_, _, rfl⟩

/-- No transaction changes a parameter. -/
theorem serve_params {x : Transaction} {s t : State} (h : serve x s = .next t) : t.params = s.params := by
  cases x with
  | load p =>
    obtain ⟨-, rfl⟩ := loadPacket_eq_next.mp h
    exact loaded_params s p
  | command w => exact (runCommand_sameInputs h).params
  | readReg number k =>
    obtain ⟨a, c, rfl⟩ := readRegister_frame h
    rfl
  | drain =>
    obtain ⟨a, o, rfl⟩ := drainRecord_frame h
    rfl
  | reset =>
    cases h
    rfl

/-- A step is idle, or it serves the oldest transaction of the inbox (R35, R184). -/
theorem step_cases {s t : State} (h : step s = .next t) :
    (s.inbox = [] ∧ t = s) ∨ ∃ x rest, s.inbox = x :: rest ∧ serve x (s.take rest) = .next t := by
  unfold step at h
  split at h
  · rename_i hi
    cases h
    exact .inl ⟨hi, rfl⟩
  · rename_i x rest hi
    exact .inr ⟨x, rest, hi, h⟩

end Sys2Proof.Machine

namespace Sys2Proof

open Machine

/-- Settles O21: an idle step changes nothing, and no transaction changes a parameter. -/
theorem parametersNeverChange : Obligations.ParametersNeverChange := by
  intro s t h
  rcases step_cases h with ⟨-, rfl⟩ | ⟨x, rest, -, hx⟩
  · rfl
  · exact (serve_params hx).trans (State.take_params s rest)

/-- Settles O39, from the two outcomes of a read below and above `PKT_LEN`. -/
theorem packetReadsStayBelowItsLength : Obligations.PacketReadsStayBelowItsLength := by
  refine ⟨fun s a b => State.memRead_eq_ok.mp, fun s a => State.memRead_beyond, fun s p a b hp hb => ?_⟩
  obtain ⟨ha, rfl⟩ := List.getElem?_eq_some_iff.mp hb
  exact hp.memRead ha

/-- Settles O49, from the arithmetic of `FULL_PACKET_LEN` and the two known entries of the palette. -/
theorem admittedParameters : Obligations.AdmittedParameters :=
  ⟨Config.Params.wf_iff, Config.params_wf⟩

end Sys2Proof
end

section
/-!
Proofs of the statements about the block's state (spec/10_state.md), first part: the invariant of the result registers (R32). Each
named update of the state keeps the invariant under the condition an operation meets when it makes that update, so an operation's
proof is the chain of its updates.
-/

namespace Sys2Proof.Machine

/-! ## What a read that answers says about the packet buffer -/

theorem State.readStartLine_eq_ok {s : State} {l : LineNo} (h : s.readStartLine = .ok l) :
    ∃ b4 b5, s.pkt.read 4 = some b4 ∧ s.pkt.read 5 = some b5 ∧ l = startLineOf (lineWord b5 b4) := by
  unfold State.readStartLine at h
  split at h
  · cases h
  · rename_i b5 h5
    split at h
    · cases h
    · rename_i b4 h4
      cases h
      exact ⟨b4, b5, (State.memRead_eq_ok.mp h4).2, (State.memRead_eq_ok.mp h5).2, rfl⟩

/-- The start line as a number: bytes 4 and 5 little-endian, bit 15 dropped (R53, R81). -/
theorem startLineOf_lineWord_toNat (b5 b4 : Byte) :
    (startLineOf (lineWord b5 b4)).toNat = (b5.toNat * 256 + b4.toNat) % 32768 := by
  have h4 : b4.toNat < 2 ^ 8 := b4.isLt
  have h5 : b5.toNat < 2 ^ 8 := b5.isLt
  have hw : (lineWord b5 b4).toNat = b5.toNat * 256 + b4.toNat := by
    have hs : b5.toNat <<< 8 % 65536 = b5.toNat <<< 8 := Nat.mod_eq_of_lt (by rw [Nat.shiftLeft_eq]; omega)
    have h4' : b4.toNat % 65536 = b4.toNat := Nat.mod_eq_of_lt (by omega)
    have h5' : b5.toNat % 65536 = b5.toNat := Nat.mod_eq_of_lt (by omega)
    simp only [lineWord, BitVec.toNat_or, BitVec.toNat_shiftLeft, BitVec.toNat_setWidth, Nat.reducePow, h4', h5', hs]
    rw [← Nat.shiftLeft_add_eq_or_of_lt h4, Nat.shiftLeft_eq]
  simp only [startLineOf, BitVec.extractLsb'_toNat, hw, Nat.shiftRight_zero, Nat.reducePow]

/-- `n` reads that answer give the bytes of `PKT` from offset `a`, in order. -/
theorem State.memReads_eq_ok {s : State} {a n : Nat} {bs : List Byte} (h : s.memReads a n = .ok bs) :
    bs.length = n ∧ ∀ j, j < n → s.pkt.read (a + j) = bs[j]? := by
  induction n generalizing a bs with
  | zero =>
    cases h
    exact ⟨rfl, fun j hj => absurd hj (Nat.not_lt_zero j)⟩
  | succ n ih =>
    unfold State.memReads at h
    split at h
    · cases h
    · rename_i b hb
      split at h
      · cases h
      · rename_i bs' hbs
        cases h
        obtain ⟨hlen, hread⟩ := ih hbs
        refine ⟨by simp [hlen], fun j hj => ?_⟩
        cases j with
        | zero => exact (State.memRead_eq_ok.mp hb).2
        | succ j =>
          rw [← Nat.succ_add_eq_add_succ, List.getElem?_cons_succ]
          exact hread j (by omega)

theorem State.readSegment_eq_ok {s : State} {i : Nat} {l : List ColorIndex} (h : s.readSegment i = .ok l) :
    ∃ bs, s.memReads (segmentStart s.params.bpl i) s.params.bpl = .ok bs ∧ l = unpackBytes bs := by
  unfold State.readSegment at h
  split at h
  · cases h
  · rename_i bs hbs
    cases h
    exact ⟨bs, hbs, rfl⟩

/-- Byte `j` unpacks to element `2j`, its left pixel, and element `2j + 1`, its right one (R55). -/
theorem unpackBytes_getElem? (bs : List Byte) (j : Nat) :
    (unpackBytes bs)[2 * j]? = bs[j]?.map (fun b => (fSplit b).1) ∧
    (unpackBytes bs)[2 * j + 1]? = bs[j]?.map (fun b => (fSplit b).2) := by
  induction bs generalizing j with
  | nil => simp [unpackBytes]
  | cons b bs ih =>
    cases j with
    | zero => simp [unpackBytes, leftPixel_eq, rightPixel_eq]
    | succ j => simpa [unpackBytes, Nat.mul_add] using ih j

/-- A segment that is read has `2 * BPL` elements, two to each of its bytes (R55, R132). -/
theorem State.readSegment_elements {s : State} {i : Nat} {l : List ColorIndex} (h : s.readSegment i = .ok l) :
    l.length = 2 * s.params.bpl ∧
    ∀ j, j < s.params.bpl → ∃ b, s.pkt.read (12 + i * s.params.bpl + j) = some b ∧
      l[2 * j]? = some (fSplit b).1 ∧ l[2 * j + 1]? = some (fSplit b).2 := by
  obtain ⟨bs, hbs, rfl⟩ := State.readSegment_eq_ok h
  obtain ⟨hlen, hread⟩ := State.memReads_eq_ok hbs
  refine ⟨by rw [unpackBytes_length, hlen], fun j hj => ?_⟩
  have hb : bs[j]? = some bs[j] := List.getElem?_eq_getElem (by omega)
  obtain ⟨hleft, hright⟩ := unpackBytes_getElem? bs j
  exact ⟨bs[j], (hread j hj).trans hb, by rw [hleft, hb]; rfl, by rw [hright, hb]; rfl⟩

/-! ## One rule per update of the state -/

theorem Condition.code_le_five (c : Condition) : c.code.toNat ≤ 5 := by
  cases c <;> decide

section
variable {s : State} (hs : s.Inv)
include hs

/-- The model's own fields are no part of the invariant. -/
theorem State.Inv.withHostFields (is : List Transaction) (a : Answer) (c : Nat) :
    State.Inv { s with inbox := is, answer := a, freeCount := c } :=
  { hs with }

theorem State.Inv.raise (c : Condition) : (s.raise c).Inv :=
  { hs with outcomeInRange := ⟨hs.outcomeInRange.1, c.code_le_five⟩ }

theorem State.Inv.setEmitCnt {n : Nat} (hn : n ≤ 4) : (s.setEmitCnt n).Inv :=
  { hs with outcomeInRange := ⟨by simp; omega, hs.outcomeInRange.2⟩ }

theorem State.Inv.setHeader {l : LineNo} (hlen : s.shortPacket = false) (hl : s.readStartLine = .ok l) :
    (s.setHeader l).Inv := by
  obtain ⟨b4, b5, h4, h5, rfl⟩ := State.readStartLine_eq_ok hl
  exact { hs with
    headerCleared := fun h => absurd h (by simp)
    matchNeedsHeader := fun _ => rfl
    headerCurrent := fun _ => ⟨State.not_shortPacket_iff.mp hlen, b4, b5, h4, h5, startLineOf_lineWord_toNat b5 b4⟩ }

/-- The header is cleared only while nothing is selected, so `MATCH = 1` still implies `HDR_OK = 1`. -/
theorem State.Inv.clearHeader (hm : s.matched = false) : s.clearHeader.Inv :=
  { hs with
    headerCleared := fun _ => rfl
    matchNeedsHeader := fun h => absurd h (by simp [hm])
    headerCurrent := fun h => absurd h (by simp) }

theorem State.Inv.setSelection (i : LineIdx) (hh : s.hdrOk = true) : (s.setSelection i).Inv :=
  { hs with
    selectionCleared := fun h => absurd h (by simp)
    matchNeedsHeader := fun _ => hh }

theorem State.Inv.clearSelection : s.clearSelection.Inv :=
  { hs with
    selectionCleared := fun _ => rfl
    matchNeedsHeader := fun h => absurd h (by simp) }

theorem State.Inv.setLine {i : LineIdx} {l : List ColorIndex} (hlen : s.shortPacket = false)
    (hi : s.hasSegment i.toNat = true) (hl : s.readSegment i.toNat = .ok l) : (s.setLine l).Inv := by
  have hend := (State.hasSegment_iff (State.not_shortPacket_iff.mp hlen)).mp hi
  obtain ⟨hll, hbytes⟩ := State.readSegment_elements hl
  exact { hs with
    lineCleared := by simp [State.LineCleared]
    lineCurrent := fun _ => ⟨i.toNat, l, i.isLt, by rwa [Nat.succ_mul], rfl, hll, hbytes⟩ }

theorem State.Inv.clearLine : s.clearLine.Inv :=
  { hs with
    lineCleared := by simp [State.LineCleared]
    lineCurrent := fun h => absurd h (by simp) }

theorem State.Inv.emit {r : Record} (hr : r.length = 2 * s.params.bpl) : (s.emit r).Inv :=
  { hs with
    recordsWhole := fun x hx => by
      rcases List.mem_append.mp hx with hx | hx
      · exact hs.recordsWhole x hx
      · rwa [List.mem_singleton.mp hx] }

theorem State.Inv.forgetResults : (forgetResults s).Inv :=
  hs.clearSelection.clearLine.setEmitCnt (Nat.zero_le 4)

/-- Records that are still in `OUT` are as long as before (R29). -/
theorem State.Inv.dropRecords {rs : List Record} (a : Answer) (h : ∀ r ∈ rs, r ∈ s.out) :
    State.Inv { s with out := rs, answer := a } :=
  { hs with recordsWhole := fun r hr => hs.recordsWhole r (h r hr) }

/-- What RND reads is a whole line (R32 (f)). -/
theorem State.Inv.line_length {l : List ColorIndex} (hok : s.lineOk = true) (hl : s.lineBuf = some l) :
    l.length = 2 * s.params.bpl := by
  obtain ⟨-, l', -, -, hl', hlen, -⟩ := hs.lineCurrent hok
  cases hl.symm.trans hl'
  exact hlen

/-- A selection implies a header, and a header implies a packet that holds one (R32 (d), (e)). -/
theorem State.Inv.not_matched_of_shortPacket (hshort : s.shortPacket = true) : s.matched = false := by
  by_contra hm
  have hlen := (hs.headerCurrent (hs.matchNeedsHeader (by simpa using hm))).1
  have := State.shortPacket_iff.mp hshort
  omega

end

theorem lookUp_length (p : Config.Params) (l : List ColorIndex) : (lookUp p l).length = l.length :=
  List.length_map p.glyph

/-- Unpacking and rendering a complete segment, as LIVE and RPLY do. -/
theorem State.Inv.setLine_emit {s : State} (hs : s.Inv) {i : LineIdx} {l : List ColorIndex} (hlen : s.shortPacket = false)
    (hi : s.hasSegment i.toNat = true) (hl : s.readSegment i.toNat = .ok l) :
    ((s.setLine l).emit (lookUp s.params l)).Inv :=
  (hs.setLine hlen hi hl).emit ((lookUp_length _ l).trans (State.readSegment_elements hl).1)

/-- A state with every result register cleared meets R32 (a) to (g). -/
theorem State.Inv.of_cleared {s : State} (hp : s.params.wf = true) (hb : s.BufferOk) (ho : s.RecordsWhole)
    (hr : s.results = State.reset.results) : s.Inv := by
  simp only [State.results, State.reset, Results.mk.injEq] at hr
  obtain ⟨hstart, hhdr, hsel, hmatch, hbuf, hline, hemit, hcode⟩ := hr
  exact {
    paramsOk := hp
    bufferOk := hb
    headerCleared := fun _ => hstart
    selectionCleared := fun _ => hsel
    lineCleared := by simp [State.LineCleared, hbuf, hline]
    matchNeedsHeader := fun h => absurd h (by simp [hmatch])
    headerCurrent := fun h => absurd h (by simp [hhdr])
    lineCurrent := fun h => absurd h (by simp [hline])
    outcomeInRange := by simp [State.OutcomeInRange, hemit, hcode]
    recordsWhole := ho }

/-! ## Every operation keeps the invariant -/

theorem execHdr_keeps_inv {s t : State} (hs : s.Inv) (h : execHdr s = .next t) : t.Inv := by
  rcases execHdr_cases h with ⟨hshort, rfl⟩ | ⟨hlen, l, hl, rfl⟩
  · exact ((hs.clearHeader (hs.not_matched_of_shortPacket hshort)).setEmitCnt (Nat.zero_le 4)).raise _
  · exact ((hs.setHeader hlen hl).setEmitCnt (Nat.zero_le 4)).raise _

theorem execSel_keeps_inv {s t : State} {g : LineNo} (hs : s.Inv) (h : execSel g s = .next t) : t.Inv := by
  rcases execSel_cases h with ⟨-, rfl⟩ | ⟨hhdr, -, rfl⟩ | ⟨-, -, rfl⟩
  · exact (hs.clearSelection.setEmitCnt (Nat.zero_le 4)).raise _
  · exact ((hs.setSelection _ hhdr).setEmitCnt (Nat.zero_le 4)).raise _
  · exact (hs.clearSelection.setEmitCnt (Nat.zero_le 4)).raise _

theorem execPxl_keeps_inv {s t : State} {i : LineIdx} (hs : s.Inv) (h : execPxl i s = .next t) : t.Inv := by
  rcases execPxl_cases h with ⟨-, rfl⟩ | ⟨hlen, hi, l, hl, rfl⟩ | ⟨-, -, rfl⟩
  · exact (hs.clearLine.setEmitCnt (Nat.zero_le 4)).raise _
  · exact ((hs.setLine hlen hi hl).setEmitCnt (Nat.zero_le 4)).raise _
  · exact (hs.clearLine.setEmitCnt (Nat.zero_le 4)).raise _

theorem execRnd_keeps_inv {s t : State} (hs : s.Inv) (h : execRnd s = .next t) : t.Inv := by
  rcases execRnd_cases h with ⟨-, rfl⟩ | ⟨hok, l, hl, rfl⟩
  · exact (hs.setEmitCnt (Nat.zero_le 4)).raise _
  · have hr : (lookUp s.params l).length = 2 * s.params.bpl := (lookUp_length _ l).trans (hs.line_length hok hl)
    exact ((hs.emit hr).setEmitCnt (by decide)).raise _

theorem liveBody_keeps_inv {s t : State} {g : LineNo} (hs : s.Inv) (h : liveBody g s = .next t) : t.Inv := by
  have hf : (forgetResults s).Inv := hs.forgetResults
  rcases liveBody_cases h with ⟨-, rfl⟩ | ⟨hlen, l, hl, hcase⟩
  · exact (hf.clearHeader rfl).raise _
  · have hh : ((forgetResults s).setHeader l).Inv := hf.setHeader (by simpa using hlen) (by simpa using hl)
    rcases hcase with ⟨-, rfl⟩ | ⟨-, -, rfl⟩ | ⟨-, hi, c, hc, rfl⟩
    · exact hh.raise _
    · exact (hh.setSelection _ rfl).raise _
    · have hline := (hh.setSelection (selectedIdx l g) rfl).setLine_emit (i := selectedIdx l g) (l := c)
        (by simpa using hlen) (by simpa using hi) (by simpa using hc)
      exact (hline.setEmitCnt (by decide)).raise _

theorem replayLines_keeps_inv {is : List LineIdx} {s t : State} {n : Nat} (hs : s.Inv) (hlen : s.shortPacket = false)
    (h : replayLines is s = .ok (t, n)) : t.Inv := by
  induction is generalizing s n with
  | nil =>
    cases h
    exact hs
  | cons i is ih =>
    obtain ⟨u, k, m, hline, hrest, -⟩ := replayLines_cons_eq_ok.mp h
    rcases replayLine_cases hline with ⟨-, -, rfl⟩ | ⟨hi, -, l, hl, rfl⟩
    · exact ih hs.clearLine (by simpa using hlen) hrest
    · exact ih (hs.setLine_emit hlen hi hl) (by simpa using hlen) hrest

theorem execRply_keeps_inv {s t : State} (hs : s.Inv) (h : execRply s = .next t) : t.Inv := by
  have hf : (forgetResults s).Inv := hs.forgetResults
  rcases execRply_cases h with ⟨-, rfl⟩ | ⟨hlen, l, u, n, hl, hu, rfl⟩
  · exact (hf.clearHeader rfl).raise _
  · have hh : ((forgetResults s).setHeader l).Inv := hf.setHeader (by simpa using hlen) (by simpa using hl)
    obtain ⟨rs, -, hn, -⟩ := replayLines_frame hu
    exact ((replayLines_keeps_inv hh (by simpa using hlen) hu).setEmitCnt hn).raise _

theorem exec_keeps_inv {i : Instr} {s t : State} (hs : s.Inv) (h : exec i s = .next t) : t.Inv := by
  cases i with
  | hdr => exact execHdr_keeps_inv hs h
  | sel g => exact execSel_keeps_inv hs h
  | pxl k => exact execPxl_keeps_inv hs h
  | rnd => exact execRnd_keeps_inv hs h
  | live g => exact liveBody_keeps_inv hs h
  | rply => exact execRply_keeps_inv hs h
  | mon => exact liveBody_keeps_inv hs h

theorem runCommand_keeps_inv {w : CmdWord} {s t : State} (hs : s.Inv) (h : runCommand w s = .next t) : t.Inv := by
  unfold runCommand at h
  split at h
  · exact exec_keeps_inv hs h
  · cases h
    exact (hs.setEmitCnt (Nat.zero_le 4)).raise _

/-! ## Every transaction and every step keeps the invariant -/

/-- A loaded packet that fits puts the buffer in order (R23, R33). -/
theorem loaded_bufferOk {p : List Byte} {s : State} (hwf : s.pkt.wf = true) (hp : p.length ≤ 2048) : (loaded p s).BufferOk := by
  have hholds := loaded_holdsPacket s p hp
  exact ⟨hholds.1 ▸ hp, Memory.wf_writeBytes p (by simpa using hp) hwf, p, hholds⟩

theorem loaded_keeps_inv {p : List Byte} {s : State} (hs : s.Inv) (hp : p.length ≤ 2048) : (loaded p s).Inv := by
  obtain ⟨-, hwf, -⟩ := hs.bufferOk
  exact .of_cleared hs.paramsOk (loaded_bufferOk hwf hp) hs.recordsWhole rfl

/-- After a reset the buffer holds the empty packet (R37). -/
theorem reset_bufferOk : State.reset.BufferOk :=
  ⟨by decide, Memory.wf_reset, [], rfl, fun a ha => absurd ha (Nat.not_lt_zero a)⟩

/-- What a drain leaves in `OUT` was there before (R29). -/
theorem drainRecord_keeps_inv {s t : State} (hs : s.Inv) (h : drainRecord s = .next t) : t.Inv := by
  unfold drainRecord at h
  split at h
  · cases h
    exact hs.dropRecords .empty fun _ hr => hr
  · rename_i r rest ho
    cases h
    exact hs.dropRecords (.record r) fun x hx => ho ▸ List.mem_cons_of_mem r hx

theorem serve_keeps_inv {x : Transaction} {s t : State} (hs : s.Inv) (h : serve x s = .next t) : t.Inv := by
  cases x with
  | load p =>
    obtain ⟨hp, rfl⟩ := loadPacket_eq_next.mp h
    exact loaded_keeps_inv hs hp
  | command w => exact runCommand_keeps_inv hs h
  | readReg number k =>
    obtain ⟨a, c, rfl⟩ := readRegister_frame h
    exact hs.withHostFields s.inbox a c
  | drain => exact drainRecord_keeps_inv hs h
  | reset =>
    cases h
    exact .of_cleared hs.paramsOk reset_bufferOk (List.forall_mem_nil _) rfl

end Sys2Proof.Machine

namespace Sys2Proof

open Machine

/-- Settles O53: an idle step changes nothing, and every transaction keeps the invariant. -/
theorem stepKeepsTheInvariant : Obligations.StepKeepsTheInvariant := by
  intro s t hs h
  rcases step_cases h with ⟨-, rfl⟩ | ⟨x, rest, -, hx⟩
  · exact hs
  · exact serve_keeps_inv (hs.withHostFields rest .nothing s.freeCount) hx

/-- Settles O54: every result register is cleared, the buffer holds the empty packet, and the parameters are admitted ones. -/
theorem resetMeetsTheInvariant : Obligations.ResetMeetsTheInvariant :=
  .of_cleared Config.params_wf reset_bufferOk (List.forall_mem_nil _) rfl

end Sys2Proof
end

section
/-!
Proofs of the statements about the block's state (spec/10_state.md), second part: what one transaction does (R28, R29, R33, R35, R37),
and which operation writes which register (R27, R31).
-/

namespace Sys2Proof.Machine

/-! ## One transaction -/

theorem step_of_inbox {s : State} {x : Transaction} {rest : List Transaction} (h : s.inbox = x :: rest) :
    step s = serve x (s.take rest) := by
  unfold step
  rw [h]

theorem runCommand_of_decode {w : CmdWord} {i : Instr} (h : decode w = .ok i) (s : State) : runCommand w s = exec i s := by
  unfold runCommand
  rw [h]

/-- A table word that is an instruction's is decoded as the command word presented for it (R84; log 10). -/
theorem decode_of_decodeTableWord {nbits w : Nat} {i : Instr} (h : decodeTableWord nbits w = some i) :
    decode (tableWord nbits w) = .ok i := by
  unfold decodeTableWord at h
  split at h
  · cases hd : decode (tableWord nbits w) with
    | error e => simp [hd, Except.toOption] at h
    | ok j =>
      simp only [hd, Except.toOption, Option.some.injEq] at h
      rw [h]
  · cases h

/-- A field put below a value is added to it, shifted by the field's width. -/
theorem toNat_append_eq_add {m n : Nat} (x : BitVec m) (y : BitVec n) : (x ++ y).toNat = x.toNat * 2 ^ n + y.toNat := by
  rw [BitVec.toNat_append, ← Nat.shiftLeft_add_eq_or_of_lt y.isLt, Nat.shiftLeft_eq]

/-- `STATUS` as a number: the flags in bits 0, 1 and 2, `CODE` from bit 3, `EMIT_CNT` from bit 6 (R28). -/
theorem State.status_toNat (s : State) :
    s.status.toNat =
      s.hdrOk.toNat + 2 * s.matched.toNat + 4 * s.lineOk.toNat + 8 * s.code.toNat + 64 * s.emitCnt.toNat := by
  simp only [State.status, toNat_append_eq_add, BitVec.toNat_ofBool]
  omega

theorem readElement_beyond {s : State} {k : Nat} (h : 2 * s.params.bpl ≤ k) : readElement k s = .fault (.noSuchElement k) :=
  if_pos h

/-- While `LINE_OK = 0` an element reads as a free value (R26, R28; log 6). -/
theorem readElement_of_not_lineOk {s : State} {k : Nat} (hk : k < 2 * s.params.bpl) (hok : s.lineOk = false) :
    readElement k s = .next (giveUndefined s) := by
  rw [readElement, if_neg (Nat.not_le.mpr hk), if_pos hok]

theorem readElement_of_lineOk {s : State} {k : Nat} {l : List ColorIndex} {c : ColorIndex} (hk : k < 2 * s.params.bpl)
    (hok : s.lineOk = true) (hl : s.lineBuf = some l) (hc : l[k]? = some c) : readElement k s = .next (s.give (.element c)) := by
  simp [readElement, Nat.not_le.mpr hk, hok, State.readLine, hl, andThen, hc]

theorem readRegister_no_such {number : Nat} (h : 5 ≤ number) (k : Nat) (s : State) :
    readRegister number k s = .fault (.noSuchRegister number) := by
  obtain ⟨n, rfl⟩ := Nat.exists_eq_add_of_le' h
  rfl

theorem drainRecord_of_out_cons {s : State} {r : Record} {rs : List Record} (h : s.out = r :: rs) :
    drainRecord s = .next ({ s with out := rs }.give (.record r)) := by
  unfold drainRecord
  rw [h]

theorem drainRecord_of_out_nil {s : State} (h : s.out = []) : drainRecord s = .next (s.give .empty) := by
  unfold drainRecord
  rw [h]

theorem loadPacket_of_fits {p : List Byte} (hp : p.length ≤ 2048) (s : State) : loadPacket p s = .next (loaded p s) :=
  if_pos hp

theorem loadPacket_of_too_long {p : List Byte} (hp : 2048 < p.length) (s : State) :
    loadPacket p s = .refused (.packetTooLong p.length) :=
  if_neg (Nat.not_le.mpr hp)

/-! ## The records an operation appends, and `EMIT_CNT` -/

/-- `t` has the records of `s` with at most `most` more at the end, and counts those in `EMIT_CNT` (R27, R29). -/
def State.Appends (s t : State) (most : Nat) : Prop :=
  ∃ rs, t.out = s.out ++ rs ∧ t.emitCnt.toNat = rs.length ∧ rs.length ≤ most

theorem State.Appends.of_out_eq {s t : State} (most : Nat) (ho : t.out = s.out) (he : t.emitCnt = 0) : s.Appends t most :=
  ⟨[], by simp [ho], by simp [he], Nat.zero_le most⟩

theorem State.Appends.of_out_snoc {s t : State} {r : Record} (ho : t.out = s.out ++ [r]) (he : t.emitCnt = 1) : s.Appends t 1 :=
  ⟨[r], ho, by simp [he], Nat.le_refl 1⟩

/-- With at most one record more, there is none or one. -/
theorem State.Appends.out_of_one {s t : State} (h : s.Appends t 1) : t.out = s.out ∨ ∃ r, t.out = s.out ++ [r] := by
  obtain ⟨rs, ho, -, hlen⟩ := h
  match rs, hlen with
  | [], _ => exact .inl (by simpa using ho)
  | [r], _ => exact .inr ⟨r, ho⟩

/-- With no record more, the records appended are none. -/
theorem State.Appends.none_of_zero {s t : State} (h : s.Appends t 0) :
    ∃ rs, t.out = s.out ++ rs ∧ t.emitCnt.toNat = rs.length ∧ rs = [] := by
  obtain ⟨rs, ho, he, hlen⟩ := h
  exact ⟨rs, ho, he, List.length_eq_zero_iff.mp (Nat.le_zero.mp hlen)⟩

theorem State.Appends.out_of_zero {s t : State} (h : s.Appends t 0) : t.out = s.out := by
  obtain ⟨rs, ho, -, rfl⟩ := h.none_of_zero
  exact ho.trans (List.append_nil s.out)

theorem execHdr_appends {s t : State} (h : execHdr s = .next t) : s.Appends t 0 := by
  rcases execHdr_cases h with ⟨-, rfl⟩ | ⟨-, l, -, rfl⟩
  all_goals exact .of_out_eq 0 rfl rfl

theorem execSel_appends {s t : State} {g : LineNo} (h : execSel g s = .next t) : s.Appends t 0 := by
  rcases execSel_cases h with ⟨-, rfl⟩ | ⟨-, -, rfl⟩ | ⟨-, -, rfl⟩
  all_goals exact .of_out_eq 0 rfl rfl

theorem execPxl_appends {s t : State} {i : LineIdx} (h : execPxl i s = .next t) : s.Appends t 0 := by
  rcases execPxl_cases h with ⟨-, rfl⟩ | ⟨-, -, l, -, rfl⟩ | ⟨-, -, rfl⟩
  all_goals exact .of_out_eq 0 rfl rfl

theorem execRnd_appends {s t : State} (h : execRnd s = .next t) : s.Appends t 1 := by
  rcases execRnd_cases h with ⟨-, rfl⟩ | ⟨-, l, -, rfl⟩
  · exact .of_out_eq 1 rfl rfl
  · exact .of_out_snoc rfl rfl

theorem liveBody_appends {s t : State} {g : LineNo} (h : liveBody g s = .next t) : s.Appends t 1 := by
  rcases liveBody_cases h with ⟨-, rfl⟩ | ⟨-, l, -, ⟨-, rfl⟩ | ⟨-, -, rfl⟩ | ⟨-, -, c, -, rfl⟩⟩
  · exact .of_out_eq 1 rfl rfl
  · exact .of_out_eq 1 rfl rfl
  · exact .of_out_eq 1 rfl rfl
  · exact .of_out_snoc (r := lookUp s.params c) (by simp) (by simp)

theorem execRply_appends {s t : State} (h : execRply s = .next t) : s.Appends t 4 := by
  rcases execRply_cases h with ⟨-, rfl⟩ | ⟨-, l, u, n, -, hu, rfl⟩
  · exact .of_out_eq 4 rfl rfl
  · obtain ⟨rs, rfl, hn, hu⟩ := replayLines_frame hu
    have hcount : rs.length ≤ 4 := hn
    exact ⟨rs, by rw [hu]; rfl, by simp; omega, hcount⟩

/-! ## The registers an operation leaves alone -/

/-- `START_LINE` and `HDR_OK` are the same in both states. -/
def State.SameHeader (s t : State) : Prop := t.startLine = s.startLine ∧ t.hdrOk = s.hdrOk

/-- `SEL_IDX` and `MATCH` are the same in both states. -/
def State.SameSelection (s t : State) : Prop := t.selIdx = s.selIdx ∧ t.matched = s.matched

/-- `LINE_BUF` and `LINE_OK` are the same in both states. -/
def State.SameLine (s t : State) : Prop := t.lineBuf = s.lineBuf ∧ t.lineOk = s.lineOk

/-- HDR writes no register of the selection or of the line (R31). -/
theorem execHdr_frame {s t : State} (h : execHdr s = .next t) : s.SameSelection t ∧ s.SameLine t := by
  rcases execHdr_cases h with ⟨-, rfl⟩ | ⟨-, l, -, rfl⟩
  all_goals exact ⟨⟨rfl, rfl⟩, rfl, rfl⟩

/-- SEL writes no register of the header or of the line (R31). -/
theorem execSel_frame {s t : State} {g : LineNo} (h : execSel g s = .next t) : s.SameHeader t ∧ s.SameLine t := by
  rcases execSel_cases h with ⟨-, rfl⟩ | ⟨-, -, rfl⟩ | ⟨-, -, rfl⟩
  all_goals exact ⟨⟨rfl, rfl⟩, rfl, rfl⟩

/-- PXL writes no register of the header or of the selection (R31). -/
theorem execPxl_frame {s t : State} {i : LineIdx} (h : execPxl i s = .next t) : s.SameHeader t ∧ s.SameSelection t := by
  rcases execPxl_cases h with ⟨-, rfl⟩ | ⟨-, -, l, -, rfl⟩ | ⟨-, -, rfl⟩
  all_goals exact ⟨⟨rfl, rfl⟩, rfl, rfl⟩

/-- RND writes no register of the header, of the selection or of the line (R31). -/
theorem execRnd_frame {s t : State} (h : execRnd s = .next t) : s.SameHeader t ∧ s.SameSelection t ∧ s.SameLine t := by
  rcases execRnd_cases h with ⟨-, rfl⟩ | ⟨-, l, -, rfl⟩
  all_goals exact ⟨⟨rfl, rfl⟩, ⟨rfl, rfl⟩, rfl, rfl⟩

/-- RND appends a record exactly when `LINE_OK = 1` (R147). -/
theorem execRnd_out {s t : State} (h : execRnd s = .next t) :
    (s.lineOk = true → ∃ r, t.out = s.out ++ [r]) ∧ (s.lineOk = false → t.out = s.out) := by
  rcases execRnd_cases h with ⟨hok, rfl⟩ | ⟨hok, l, -, rfl⟩
  · exact ⟨fun h => absurd h (by simp [hok]), fun _ => rfl⟩
  · exact ⟨fun _ => ⟨_, rfl⟩, fun h => absurd h (by simp [hok])⟩

/-- RPLY clears the selection (R31, R156). -/
theorem execRply_clears_selection {s t : State} (h : execRply s = .next t) : t.selIdx = 0 ∧ t.matched = false := by
  rcases execRply_cases h with ⟨-, rfl⟩ | ⟨-, l, u, n, -, hu, rfl⟩
  · exact ⟨rfl, rfl⟩
  · obtain ⟨rs, -, -, hu⟩ := replayLines_frame hu
    rw [hu]
    exact ⟨rfl, rfl⟩

end Sys2Proof.Machine

namespace Sys2Proof

open Machine

/-- Settles O14: the loaded packet is held, and a write of consecutive bytes from offset 0 touches no byte from its end upward. -/
theorem loadStoresThePacket : Obligations.LoadStoresThePacket := by
  intro s p rest h hp
  refine ⟨loaded p (s.take rest), (step_of_inbox h).trans (loadPacket_of_fits hp _), loaded_holdsPacket _ p hp, fun a ha => ?_, rfl⟩
  exact Memory.read_writeBytes_outside s.pkt 0 a p (.inr (by omega))

/-- Settles O36: each row of R31's table is the frame of that operation and the records it appends. -/
theorem whatEachOperationWrites : Obligations.WhatEachOperationWrites := by
  refine ⟨fun s t h => ?hdr, fun s t g h => ?sel, fun s t i h => ?pxl, fun s t h => ?rnd, fun s t i hi h => ?live, fun s t h => ?rply,
    fun s t h => ?illegal, fun s t p h => ?load, fun s t h => ?reset, fun s t i h => ?packet⟩
  case hdr =>
    obtain ⟨⟨hsel, hmatch⟩, hbuf, hok⟩ := execHdr_frame h
    exact ⟨hsel, hmatch, hbuf, hok, (execHdr_appends h).out_of_zero⟩
  case sel =>
    obtain ⟨⟨hstart, hhdr⟩, hbuf, hok⟩ := execSel_frame h
    exact ⟨hstart, hhdr, hbuf, hok, (execSel_appends h).out_of_zero⟩
  case pxl =>
    obtain ⟨⟨hstart, hhdr⟩, hsel, hmatch⟩ := execPxl_frame h
    exact ⟨hstart, hhdr, hsel, hmatch, (execPxl_appends h).out_of_zero⟩
  case rnd =>
    obtain ⟨⟨hstart, hhdr⟩, ⟨hsel, hmatch⟩, hbuf, hok⟩ := execRnd_frame h
    exact ⟨hstart, hhdr, hsel, hmatch, hbuf, hok, execRnd_out h⟩
  case live =>
    rcases hi with ⟨g, rfl⟩ | rfl
    all_goals exact (liveBody_appends h).out_of_one
  case rply =>
    obtain ⟨hsel, hmatch⟩ := execRply_clears_selection h
    obtain ⟨rs, ho, -, hlen⟩ := execRply_appends h
    exact ⟨hsel, hmatch, rs, hlen, ho⟩
  case illegal =>
    cases h
    exact ⟨rfl, rfl, rfl, rfl, rfl, rfl, rfl⟩
  case load =>
    obtain ⟨-, rfl⟩ := loadPacket_eq_next.mp h
    exact ⟨rfl, rfl, rfl, rfl, rfl, rfl, rfl, rfl, rfl⟩
  case reset =>
    cases h
    exact ⟨rfl, rfl, rfl, rfl, rfl, rfl, rfl, rfl, rfl⟩
  case packet => exact ⟨(exec_sameInputs h).pkt, (exec_sameInputs h).pktLen⟩

/-- Settles O37: each operation's records and the bound on their number. -/
theorem emitCountIsTheRecordsAppended : Obligations.EmitCountIsTheRecordsAppended := by
  intro s t i h
  cases i with
  | hdr => exact (execHdr_appends h).none_of_zero
  | sel g => exact (execSel_appends h).none_of_zero
  | pxl k => exact (execPxl_appends h).none_of_zero
  | rnd => exact execRnd_appends h
  | live g => exact liveBody_appends h
  | rply => exact execRply_appends h
  | mon => exact liveBody_appends h

/-- Settles O11: a step serves the oldest transaction, and a command that decodes runs its instruction. -/
theorem stepRunsTheDecodedCommand : Obligations.StepRunsTheDecodedCommand := by
  refine ⟨fun s w rest i h hd => ?_, fun s nbits w i hd => ?_⟩
  · exact (step_of_inbox h).trans (runCommand_of_decode hd _)
  · have hin : (s.withFetchWord nbits w).inbox = .command (tableWord nbits w) :: s.inbox := rfl
    exact (step_of_inbox hin).trans (runCommand_of_decode (decode_of_decodeTableWord hd) _)

/-- Settles O16: the reset state is a literal; its packet is empty, so it is short, and it has neither a header nor a line. -/
theorem operationsRightAfterReset : Obligations.OperationsRightAfterReset :=
  ⟨rfl, rfl, rfl, rfl, rfl, rfl, rfl, rfl, rfl, rfl, rfl, fun a => ⟨_, State.memRead_beyond (Nat.zero_le a)⟩, rfl,
    rfl, fun _ => rfl, fun _ => rfl, rfl, fun _ => rfl, rfl⟩

/-- Settles O17: register by register; `STATUS` is the sum of its fields. -/
theorem readPortShowsTheRegisters : Obligations.ReadPortShowsTheRegisters := by
  intro s rest k
  refine ⟨fun h => ⟨s.status, step_of_inbox h, s.status_toNat⟩, step_of_inbox, step_of_inbox, step_of_inbox,
    fun l c h hok hl hk hc => ?_⟩
  exact (step_of_inbox h).trans (readElement_of_lineOk (s := s.take rest) hk hok hl hc)

/-- Settles O18: the read answers the next free value. -/
theorem invalidLineReadChangesNoRegister : Obligations.InvalidLineReadChangesNoRegister := by
  intro s rest k h hok hk
  exact ⟨_, _, (step_of_inbox h).trans (readElement_of_not_lineOk (s := s.take rest) hk hok)⟩

/-- Settles O19: the stop of each transaction the spec gives no effect. -/
theorem hostMisuseStops : Obligations.HostMisuseStops := by
  refine ⟨fun s rest number k h => ⟨fun hn => ?_, fun hn hk => ?_⟩, fun s p rest h hp => ?_⟩
  · exact (step_of_inbox h).trans (readRegister_no_such hn k _)
  · subst hn
    exact (step_of_inbox h).trans (readElement_beyond (s := s.take rest) hk)
  · exact (step_of_inbox h).trans (loadPacket_of_too_long hp _)

/-- Settles O20: the two cases of `OUT`. -/
theorem drainRemovesTheOldestRecord : Obligations.DrainRemovesTheOldestRecord := by
  refine fun s rest h => ⟨fun r rs ho => ?_, fun ho => ?_⟩
  · exact (step_of_inbox h).trans (drainRecord_of_out_cons (s := s.take rest) ho)
  · exact (step_of_inbox h).trans (drainRecord_of_out_nil (s := s.take rest) ho)

end Sys2Proof
end

section
/-!
Proof of the statement that nothing carries over from one packet to the next (spec/10_state.md rule R34). Two facts make it: an
operation on a state that holds a packet completes, and it does the same whatever stands in `OUT`, in `PKT` beyond the packet and in
the model's own fields. The second is an equation for each meaning: running it on the registers of `s` put into the block `u` is
running it on `s` and putting the outcome into `u`.
-/

namespace Sys2Proof.Machine

/-! ## An operation on a state that holds a packet completes -/

/-- What an operation leaves of a held packet: all of it. -/
theorem State.SameInputs.holdsPacket {s t : State} {p : List Byte} (h : s.SameInputs t) (hp : s.HoldsPacket p) :
    t.HoldsPacket p := by
  unfold State.HoldsPacket
  rw [h.pkt, h.pktLen]
  exact hp

section
variable {s : State} {p : List Byte} (hp : s.HoldsPacket p)
include hp

theorem State.HoldsPacket.readStartLine_answers (hlen : s.shortPacket = false) : ∃ l, s.readStartLine = .ok l := by
  obtain ⟨l, hl, -⟩ := hp.readStartLine (hp.1 ▸ State.not_shortPacket_iff.mp hlen)
  exact ⟨l, hl⟩

theorem State.HoldsPacket.readSegment_answers {i : LineIdx} (hlen : s.shortPacket = false) (hi : s.hasSegment i.toNat = true) :
    ∃ l, s.readSegment i.toNat = .ok l := by
  have hend := (State.hasSegment_iff (State.not_shortPacket_iff.mp hlen)).mp hi
  obtain ⟨l, hl, -⟩ := hp.readSegment (hp.1 ▸ hend)
  exact ⟨l, hl⟩

theorem execHdr_completes : ∃ t, execHdr s = .next t := by
  unfold execHdr
  split
  · exact ⟨_, rfl⟩
  · rename_i hlen
    obtain ⟨l, hl⟩ := hp.readStartLine_answers (by simpa using hlen)
    exact ⟨_, by rw [hl]; rfl⟩

omit hp in
theorem execSel_completes (g : LineNo) (s : State) : ∃ t, execSel g s = .next t := by
  unfold execSel
  split
  · exact ⟨_, rfl⟩
  · split
    · exact ⟨_, rfl⟩
    · exact ⟨_, rfl⟩

theorem execPxl_completes (i : LineIdx) : ∃ t, execPxl i s = .next t := by
  unfold execPxl
  split
  · exact ⟨_, rfl⟩
  · rename_i hlen
    split
    · rename_i hi
      obtain ⟨l, hl⟩ := hp.readSegment_answers (by simpa using hlen) hi
      exact ⟨_, by rw [hl]; rfl⟩
    · exact ⟨_, rfl⟩

omit hp in
/-- RND needs no packet, but a line while `LINE_OK = 1` (R32 (c)). -/
theorem execRnd_completes (hl : s.LineCleared) : ∃ t, execRnd s = .next t := by
  unfold execRnd
  split
  · exact ⟨_, rfl⟩
  · rename_i hok
    obtain ⟨l, hbuf⟩ := Option.ne_none_iff_exists'.mp (mt hl.mpr hok)
    exact ⟨_, by rw [State.renderLine_eq_ok.mpr ⟨l, hbuf, rfl⟩]; rfl⟩

theorem liveBody_completes (g : LineNo) : ∃ t, liveBody g s = .next t := by
  unfold liveBody
  simp only [forgetResults_shortPacket, forgetResults_readStartLine]
  split
  · exact ⟨_, rfl⟩
  · rename_i hlen
    obtain ⟨l, hl⟩ := hp.readStartLine_answers (by simpa using hlen)
    rw [hl]
    simp only [andThen, liveSelected]
    split
    · split
      · rename_i hi
        obtain ⟨c, hc⟩ := hp.readSegment_answers (i := selectedIdx l g) (by simpa using hlen) (by simpa using hi)
        rw [unpackAndRender_eq_ok.mpr ⟨c, by simpa using hc, rfl⟩]
        exact ⟨_, rfl⟩
      · exact ⟨_, rfl⟩
    · exact ⟨_, rfl⟩

theorem replayLine_completes (i : LineIdx) (hlen : s.shortPacket = false) : ∃ r, replayLine i s = .ok r := by
  unfold replayLine
  split
  · rename_i hi
    obtain ⟨l, hl⟩ := hp.readSegment_answers hlen hi
    exact ⟨_, by rw [unpackAndRender_eq_ok.mpr ⟨l, hl, rfl⟩]⟩
  · exact ⟨_, rfl⟩

theorem replayLines_completes (is : List LineIdx) (hlen : s.shortPacket = false) : ∃ r, replayLines is s = .ok r := by
  induction is generalizing s with
  | nil => exact ⟨_, rfl⟩
  | cons i is ih =>
    obtain ⟨⟨t, k⟩, ht⟩ := replayLine_completes hp i hlen
    have hrest : ∃ r, replayLines is t = .ok r := by
      rcases replayLine_cases ht with ⟨-, -, rfl⟩ | ⟨-, -, l, -, rfl⟩
      · exact ih hp hlen
      · exact ih hp hlen
    obtain ⟨⟨u, m⟩, hu⟩ := hrest
    exact ⟨(u, k + m), replayLines_cons_eq_ok.mpr ⟨t, k, m, ht, hu, rfl⟩⟩

theorem execRply_completes : ∃ t, execRply s = .next t := by
  unfold execRply
  simp only [forgetResults_shortPacket, forgetResults_readStartLine]
  split
  · exact ⟨_, rfl⟩
  · rename_i hlen
    obtain ⟨l, hl⟩ := hp.readStartLine_answers (by simpa using hlen)
    obtain ⟨r, hr⟩ := replayLines_completes (s := (forgetResults s).setHeader l) hp [0, 1, 2, 3] (by simpa using hlen)
    rw [hl]
    simp only [andThen, hr]
    exact ⟨_, rfl⟩

/-- R185, for any `BPL`: what an operation needs is the packet's bytes and, for RND, a line behind `LINE_OK`. -/
theorem exec_completes (hl : s.LineCleared) (i : Instr) : ∃ t, exec i s = .next t := by
  cases i with
  | hdr => exact execHdr_completes hp
  | sel g => exact execSel_completes g s
  | pxl k => exact execPxl_completes hp k
  | rnd => exact execRnd_completes hl
  | live g => exact liveBody_completes hp g
  | rply => exact execRply_completes hp
  | mon => exact liveBody_completes hp _

theorem runCommand_completes (hl : s.LineCleared) (w : CmdWord) : ∃ t, runCommand w s = .next t := by
  unfold runCommand
  split
  · exact exec_completes hp hl _
  · exact ⟨_, rfl⟩

end

/-! ## Every command keeps `LINE_OK` and `LINE_BUF` together (R32 (c)), whatever the parameters -/

theorem State.setLine_lineCleared (s : State) (l : List ColorIndex) : (s.setLine l).LineCleared := by
  simp [State.LineCleared]

theorem State.clearLine_lineCleared (s : State) : s.clearLine.LineCleared := by
  simp [State.LineCleared]

theorem liveBody_lineCleared {g : LineNo} {s t : State} (h : liveBody g s = .next t) : t.LineCleared := by
  rcases liveBody_cases h with ⟨-, rfl⟩ | ⟨-, l, -, ⟨-, rfl⟩ | ⟨-, -, rfl⟩ | ⟨-, -, c, -, rfl⟩⟩
  all_goals simp [State.LineCleared]

theorem replayLines_lineCleared {is : List LineIdx} {s t : State} {n : Nat} (hl : s.LineCleared)
    (h : replayLines is s = .ok (t, n)) : t.LineCleared := by
  induction is generalizing s n with
  | nil =>
    cases h
    exact hl
  | cons i is ih =>
    obtain ⟨u, k, m, hline, hrest, -⟩ := replayLines_cons_eq_ok.mp h
    rcases replayLine_cases hline with ⟨-, -, rfl⟩ | ⟨-, -, l, -, rfl⟩
    · exact ih s.clearLine_lineCleared hrest
    · exact ih (s := (s.setLine l).emit _) (s.setLine_lineCleared l) hrest

theorem exec_lineCleared {i : Instr} {s t : State} (hl : s.LineCleared) (h : exec i s = .next t) : t.LineCleared := by
  cases i with
  | hdr =>
    obtain ⟨-, hbuf, hok⟩ := execHdr_frame h
    rwa [State.LineCleared, hbuf, hok]
  | sel g =>
    obtain ⟨-, hbuf, hok⟩ := execSel_frame h
    rwa [State.LineCleared, hbuf, hok]
  | pxl k =>
    rcases execPxl_cases h with ⟨-, rfl⟩ | ⟨-, -, l, -, rfl⟩ | ⟨-, -, rfl⟩
    · exact s.clearLine_lineCleared
    · exact s.setLine_lineCleared l
    · exact s.clearLine_lineCleared
  | rnd =>
    obtain ⟨-, -, hbuf, hok⟩ := execRnd_frame h
    rwa [State.LineCleared, hbuf, hok]
  | live g => exact liveBody_lineCleared h
  | rply =>
    rcases execRply_cases h with ⟨-, rfl⟩ | ⟨-, l, u, n, -, hu, rfl⟩
    · exact s.clearLine_lineCleared
    · have hclear : u.LineCleared := replayLines_lineCleared (s := (forgetResults s).setHeader l) s.clearLine_lineCleared hu
      exact hclear
  | mon => exact liveBody_lineCleared h

theorem runCommand_lineCleared {w : CmdWord} {s t : State} (hl : s.LineCleared) (h : runCommand w s = .next t) :
    t.LineCleared := by
  unfold runCommand at h
  split at h
  · exact exec_lineCleared hl h
  · cases h
    exact hl

theorem runCommands_completes {s : State} {p : List Byte} (hp : s.HoldsPacket p) (hl : s.LineCleared) (ws : List CmdWord) :
    ∃ t, runCommands ws s = .next t := by
  induction ws generalizing s with
  | nil => exact ⟨s, rfl⟩
  | cons w ws ih =>
    obtain ⟨t, ht⟩ := runCommand_completes hp hl w
    obtain ⟨u, hu⟩ := ih ((runCommand_sameInputs ht).holdsPacket hp) (runCommand_lineCleared hl ht)
    exact ⟨u, by rw [runCommands, ht]; exact hu⟩

/-! ## What an operation does not depend on -/

/-- The registers of `s` in the block `u`: `PKT` and the model's own fields are those of `u`, and the records of `s` stand after
those of `u`. -/
def State.onto (u s : State) : State :=
  { s with pkt := u.pkt, out := u.out ++ s.out, inbox := u.inbox, answer := u.answer, freeCount := u.freeCount }

/-- The outcome with its state, if it has one, put into the block `u`. -/
def resultOnto (u : State) : Result → Result
  | .next t => .next (u.onto t)
  | .fault f => .fault f
  | .refused r => .refused r

/-- `u` and `s` hold the same bytes below the packet length of `s`. -/
def State.SameBytes (u s : State) : Prop := ∀ a, a < s.pktLen.toNat → u.pkt.read a = s.pkt.read a

section
variable (u s : State)

@[simp] theorem State.onto_pkt : (u.onto s).pkt = u.pkt := rfl
@[simp] theorem State.onto_pktLen : (u.onto s).pktLen = s.pktLen := rfl
@[simp] theorem State.onto_params : (u.onto s).params = s.params := rfl
@[simp] theorem State.onto_startLine : (u.onto s).startLine = s.startLine := rfl
@[simp] theorem State.onto_hdrOk : (u.onto s).hdrOk = s.hdrOk := rfl
@[simp] theorem State.onto_selIdx : (u.onto s).selIdx = s.selIdx := rfl
@[simp] theorem State.onto_lineOk : (u.onto s).lineOk = s.lineOk := rfl
@[simp] theorem State.onto_readLine : (u.onto s).readLine = s.readLine := rfl
@[simp] theorem State.onto_shortPacket : (u.onto s).shortPacket = s.shortPacket := rfl
@[simp] theorem State.onto_hasSegment (i : Nat) : (u.onto s).hasSegment i = s.hasSegment i := rfl
@[simp] theorem State.onto_setHeader (l : LineNo) : (u.onto s).setHeader l = u.onto (s.setHeader l) := rfl
@[simp] theorem State.onto_setSelection (i : LineIdx) : (u.onto s).setSelection i = u.onto (s.setSelection i) := rfl
@[simp] theorem State.onto_forgetResults : forgetResults (u.onto s) = u.onto (forgetResults s) := rfl

end

theorem State.onto_emit (u s : State) (r : Record) : (u.onto s).emit r = u.onto (s.emit r) := by
  simp [State.onto, State.emit]

theorem State.onto_renderLine (u s : State) : (u.onto s).renderLine = s.renderLine.map u.onto := by
  rw [State.renderLine, State.renderLine, State.onto_readLine]
  cases s.readLine with
  | error f => rfl
  | ok l => exact congrArg Except.ok (u.onto_emit s _)

/-- Going on after a read commutes with putting the outcome into a block. -/
theorem andThen_onto {α : Type} (u : State) (r : Except Fault α) {k k' : α → Result} (hk : ∀ x, k' x = resultOnto u (k x)) :
    andThen r k' = resultOnto u (andThen r k) := by
  cases r with
  | error f => rfl
  | ok x => exact hk x

/-- The same, where the read itself answers a state or more, which is put into the block. -/
theorem andThen_map_onto {α : Type} (u : State) (r : Except Fault α) (f : α → α) {k k' : α → Result}
    (hk : ∀ x, k' (f x) = resultOnto u (k x)) : andThen (r.map f) k' = resultOnto u (andThen r k) := by
  cases r with
  | error e => rfl
  | ok x => exact hk x

theorem execSel_onto (u s : State) (g : LineNo) : execSel g (u.onto s) = resultOnto u (execSel g s) := by
  unfold execSel
  rw [State.onto_hdrOk, State.onto_startLine]
  split
  · rfl
  · split
    · rfl
    · rfl

theorem execRnd_onto (u s : State) : execRnd (u.onto s) = resultOnto u (execRnd s) := by
  unfold execRnd
  rw [State.onto_lineOk, u.onto_renderLine]
  split
  · rfl
  · exact andThen_map_onto u _ _ fun _ => rfl

section
variable {u s : State} (h : u.SameBytes s)
include h

theorem State.SameBytes.memRead (a : Nat) : (u.onto s).memRead a = s.memRead a := by
  unfold State.memRead
  rw [State.onto_pktLen, State.onto_pkt]
  split
  · rename_i ha
    rw [h a ha]
  · rfl

theorem State.SameBytes.memReads (a n : Nat) : (u.onto s).memReads a n = s.memReads a n := by
  induction n generalizing a with
  | zero => rfl
  | succ n ih => rw [State.memReads, State.memReads, h.memRead, ih]

theorem State.SameBytes.readStartLine : (u.onto s).readStartLine = s.readStartLine := by
  rw [State.readStartLine, State.readStartLine, h.memRead, h.memRead]

theorem State.SameBytes.readSegment (i : Nat) : (u.onto s).readSegment i = s.readSegment i := by
  rw [State.readSegment, State.readSegment, State.onto_params, h.memReads]

theorem execHdr_onto : execHdr (u.onto s) = resultOnto u (execHdr s) := by
  unfold execHdr
  rw [State.onto_shortPacket, h.readStartLine]
  split
  · rfl
  · exact andThen_onto u _ fun _ => rfl

theorem execPxl_onto (i : LineIdx) : execPxl i (u.onto s) = resultOnto u (execPxl i s) := by
  unfold execPxl
  rw [State.onto_shortPacket, State.onto_hasSegment, h.readSegment]
  split
  · rfl
  · split
    · exact andThen_onto u _ fun _ => rfl
    · rfl

theorem unpackAndRender_onto (i : Nat) : unpackAndRender i (u.onto s) = (unpackAndRender i s).map u.onto := by
  unfold unpackAndRender
  rw [h.readSegment]
  cases s.readSegment i with
  | error f => rfl
  | ok l => exact u.onto_renderLine (s.setLine l)

theorem liveSelected_onto (g : LineNo) : liveSelected g (u.onto s) = resultOnto u (liveSelected g s) := by
  have hset (i : LineIdx) : u.SameBytes (s.setSelection i) := h
  simp only [liveSelected, State.onto_startLine, State.onto_setSelection, State.onto_selIdx, State.onto_hasSegment,
    unpackAndRender_onto (hset _)]
  split
  · split
    · exact andThen_map_onto u _ _ fun _ => rfl
    · rfl
  · rfl

theorem liveBody_onto (g : LineNo) : liveBody g (u.onto s) = resultOnto u (liveBody g s) := by
  have hforget : u.SameBytes (forgetResults s) := h
  simp only [liveBody, State.onto_forgetResults, State.onto_shortPacket, hforget.readStartLine]
  split
  · rfl
  · exact andThen_onto u _ fun l => liveSelected_onto (s := (forgetResults s).setHeader l) h g

theorem replayLine_onto (i : LineIdx) : replayLine i (u.onto s) = (replayLine i s).map fun r => (u.onto r.1, r.2) := by
  unfold replayLine
  rw [State.onto_hasSegment, unpackAndRender_onto h]
  split
  · cases unpackAndRender i.toNat s with
    | error f => rfl
    | ok t => rfl
  · rfl

theorem replayLines_onto (is : List LineIdx) :
    replayLines is (u.onto s) = (replayLines is s).map fun r => (u.onto r.1, r.2) := by
  induction is generalizing s with
  | nil => rfl
  | cons i is ih =>
    rw [replayLines, replayLines, replayLine_onto h]
    cases hline : replayLine i s with
    | error f => rfl
    | ok r =>
      have hr : u.SameBytes r.1 := by
        rcases replayLine_cases hline with ⟨-, -, ht⟩ | ⟨-, -, l, -, ht⟩
        all_goals
          rw [ht]
          exact h
      simp only [Except.map, ih hr]
      cases replayLines is r.1 with
      | error f => rfl
      | ok r' => rfl

theorem execRply_onto : execRply (u.onto s) = resultOnto u (execRply s) := by
  have hforget : u.SameBytes (forgetResults s) := h
  simp only [execRply, State.onto_forgetResults, State.onto_shortPacket, hforget.readStartLine]
  split
  · rfl
  · refine andThen_onto u _ fun l => ?_
    rw [State.onto_setHeader, replayLines_onto (s := (forgetResults s).setHeader l) h]
    exact andThen_map_onto u _ _ fun _ => rfl

/-- An operation does the same in every block that holds the packet's bytes (R58). -/
theorem exec_onto (i : Instr) : exec i (u.onto s) = resultOnto u (exec i s) := by
  cases i with
  | hdr => exact execHdr_onto h
  | sel g => exact execSel_onto u s g
  | pxl k => exact execPxl_onto h k
  | rnd => exact execRnd_onto u s
  | live g => exact liveBody_onto h g
  | rply => exact execRply_onto h
  | mon => exact liveBody_onto h _

theorem runCommand_onto (w : CmdWord) : runCommand w (u.onto s) = resultOnto u (runCommand w s) := by
  unfold runCommand
  split
  · exact exec_onto h _
  · rfl

end

theorem State.SameInputs.sameBytes {u s t : State} (h : s.SameInputs t) (hu : u.SameBytes s) : u.SameBytes t := by
  unfold State.SameBytes
  rw [h.pkt, h.pktLen]
  exact hu

theorem runCommands_onto {u s t : State} {ws : List CmdWord} (h : u.SameBytes s) (ht : runCommands ws s = .next t) :
    runCommands ws (u.onto s) = .next (u.onto t) := by
  induction ws generalizing s with
  | nil =>
    cases ht
    rfl
  | cons w ws ih =>
    rw [runCommands, runCommand_onto h]
    cases hw : runCommand w s with
    | next v =>
      rw [runCommands, hw] at ht
      exact ih ((runCommand_sameInputs hw).sameBytes h) ht
    | fault f => simp [runCommands, hw] at ht
    | refused r => simp [runCommands, hw] at ht

/-! ## Two blocks after the same load -/

/-- The state after a load of `p` into a block with parameters `prm`, nothing left of what came before. -/
def freshlyLoaded (prm : Config.Params) (p : List Byte) : State := loaded p { State.reset with params := prm }

/-- A loaded block is the fresh one put into it: a load clears every result register (R33). -/
theorem loaded_eq_onto_freshlyLoaded (s : State) (p : List Byte) : loaded p s = (loaded p s).onto (freshlyLoaded s.params p) := by
  have hout : (loaded p s).out = (loaded p s).out ++ (freshlyLoaded s.params p).out := (List.append_nil _).symm
  rw [State.onto, ← hout]
  rfl

theorem loaded_sameBytes (s : State) {p : List Byte} (prm : Config.Params) (hp : p.length ≤ 2048) :
    (loaded p s).SameBytes (freshlyLoaded prm p) := by
  obtain ⟨hlen, hfresh⟩ := loaded_holdsPacket { State.reset with params := prm } p hp
  obtain ⟨-, hread⟩ := loaded_holdsPacket s p hp
  intro a ha
  have ha' : a < p.length := hlen ▸ ha
  exact (hread a ha').trans (hfresh a ha').symm

/-- Commands after a load are those commands after the load into a fresh block, put into the block (R34). -/
theorem runCommands_loaded {s t : State} {p : List Byte} {ws : List CmdWord} (hp : p.length ≤ 2048)
    (ht : runCommands ws (freshlyLoaded s.params p) = .next t) : runCommands ws (loaded p s) = .next ((loaded p s).onto t) :=
  (congrArg (runCommands ws) (loaded_eq_onto_freshlyLoaded s p)).trans (runCommands_onto (loaded_sameBytes s s.params hp) ht)

end Sys2Proof.Machine

namespace Sys2Proof

open Machine

/-- Settles O58: both runs are the run after a load into a fresh block with those parameters, and that run completes. -/
theorem noCrossPacketMemory : Obligations.NoCrossPacketMemory := by
  intro s s' p ws hp hparams
  have hclear : (freshlyLoaded s.params p).LineCleared := State.clearLine_lineCleared _
  obtain ⟨t, ht⟩ := runCommands_completes (loaded_holdsPacket _ p hp) hclear ws
  exact ⟨_, _, t.out, runCommands_loaded hp ht, runCommands_loaded hp (hparams ▸ ht), rfl, rfl, rfl, rfl⟩

end Sys2Proof
end

section
/-!
Proofs of the statements about the packet buffer and what reads it (spec/20_memory.md), first part: the answer of each meaning, case by
case (the converses of `execHdr_cases` and its fellows), then what follows from them: where an operation stops (R58, R185),
that none writes the buffer (R57, R61), and what repeating one does (R59).
-/

namespace Sys2Proof.Machine

/-! ## The answer of each meaning, case by case -/

section
variable {s : State}

theorem execHdr_of_short (hs : s.shortPacket = true) : execHdr s = .next ((s.clearHeader.setEmitCnt 0).raise .shortPacket) :=
  if_pos hs

theorem execHdr_of_startLine {l : LineNo} (hs : s.shortPacket = false) (hl : s.readStartLine = .ok l) :
    execHdr s = .next (((s.setHeader l).setEmitCnt 0).raise .ok) := by
  rw [execHdr, if_neg (by simp [hs])]
  exact andThen_eq_next.mpr ⟨l, hl, rfl⟩

theorem execSel_of_no_header {g : LineNo} (hh : s.hdrOk = false) :
    execSel g s = .next ((s.clearSelection.setEmitCnt 0).raise .notReady) :=
  if_pos hh

theorem execSel_of_match {g : LineNo} (hh : s.hdrOk = true) (hg : targetInPacket s.startLine g = true) :
    execSel g s = .next (((s.setSelection (selectedIdx s.startLine g)).setEmitCnt 0).raise .ok) := by
  rw [execSel, if_neg (by simp [hh]), if_pos hg]

theorem execSel_of_no_match {g : LineNo} (hh : s.hdrOk = true) (hg : targetInPacket s.startLine g = false) :
    execSel g s = .next ((s.clearSelection.setEmitCnt 0).raise .noMatch) := by
  rw [execSel, if_neg (by simp [hh]), if_neg (by simp [hg])]

theorem execPxl_of_short {i : LineIdx} (hs : s.shortPacket = true) :
    execPxl i s = .next ((s.clearLine.setEmitCnt 0).raise .shortPacket) :=
  if_pos hs

theorem execPxl_of_segment {i : LineIdx} {l : List ColorIndex} (hs : s.shortPacket = false) (hi : s.hasSegment i.toNat = true)
    (hl : s.readSegment i.toNat = .ok l) : execPxl i s = .next (((s.setLine l).setEmitCnt 0).raise .ok) := by
  rw [execPxl, if_neg (by simp [hs]), if_pos hi]
  exact andThen_eq_next.mpr ⟨l, hl, rfl⟩

theorem execPxl_of_no_segment {i : LineIdx} (hs : s.shortPacket = false) (hi : s.hasSegment i.toNat = false) :
    execPxl i s = .next ((s.clearLine.setEmitCnt 0).raise .insufficientData) := by
  rw [execPxl, if_neg (by simp [hs]), if_neg (by simp [hi])]

theorem execRnd_of_no_line (hok : s.lineOk = false) : execRnd s = .next ((s.setEmitCnt 0).raise .notReady) :=
  if_pos hok

theorem execRnd_of_line {l : List ColorIndex} (hok : s.lineOk = true) (hl : s.lineBuf = some l) :
    execRnd s = .next (((s.emit (lookUp s.params l)).setEmitCnt 1).raise .ok) := by
  rw [execRnd, if_neg (by simp [hok])]
  exact andThen_eq_next.mpr ⟨_, State.renderLine_eq_ok.mpr ⟨l, hl, rfl⟩, rfl⟩

theorem liveBody_of_short {g : LineNo} (hs : s.shortPacket = true) :
    liveBody g s = .next ((forgetResults s).clearHeader.raise .shortPacket) :=
  if_pos hs

/-- LIVE on a packet with a header goes on with the selection (R155, step 2). -/
theorem liveBody_of_startLine {g : LineNo} {l : LineNo} (hs : s.shortPacket = false) (hl : s.readStartLine = .ok l) :
    liveBody g s = liveSelected g ((forgetResults s).setHeader l) := by
  simp [liveBody, hs, hl, andThen]

theorem liveSelected_of_no_match {g : LineNo} (hg : targetInPacket s.startLine g = false) :
    liveSelected g s = .next (s.raise .noMatch) := by
  rw [liveSelected, if_neg (by simp [hg])]

theorem liveSelected_of_no_segment {g : LineNo} (hg : targetInPacket s.startLine g = true)
    (hi : s.hasSegment (selectedIdx s.startLine g).toNat = false) :
    liveSelected g s = .next ((s.setSelection (selectedIdx s.startLine g)).raise .insufficientData) := by
  simp [liveSelected, hg, hi]

theorem liveSelected_of_segment {g : LineNo} {c : List ColorIndex} (hg : targetInPacket s.startLine g = true)
    (hi : s.hasSegment (selectedIdx s.startLine g).toNat = true)
    (hc : s.readSegment (selectedIdx s.startLine g).toNat = .ok c) :
    liveSelected g s =
      .next (((((s.setSelection (selectedIdx s.startLine g)).setLine c).emit (lookUp s.params c)).setEmitCnt 1).raise .ok) := by
  simp only [liveSelected, hg, State.setSelection_selIdx, State.setSelection_hasSegment, hi, ↓reduceIte]
  exact andThen_eq_next.mpr ⟨_, unpackAndRender_eq_ok.mpr ⟨c, by simpa using hc, rfl⟩, rfl⟩

theorem replayLine_of_no_segment {i : LineIdx} (hi : s.hasSegment i.toNat = false) : replayLine i s = .ok (s.clearLine, 0) := by
  rw [replayLine, if_neg (by simp [hi])]

theorem replayLine_of_segment {i : LineIdx} {l : List ColorIndex} (hi : s.hasSegment i.toNat = true)
    (hl : s.readSegment i.toNat = .ok l) : replayLine i s = .ok ((s.setLine l).emit (lookUp s.params l), 1) := by
  rw [replayLine, if_pos hi, unpackAndRender_eq_ok.mpr ⟨l, hl, rfl⟩]

theorem execRply_of_short (hs : s.shortPacket = true) : execRply s = .next ((forgetResults s).clearHeader.raise .shortPacket) :=
  if_pos hs

theorem execRply_of_lines {l : LineNo} {u : State} {n : Nat} (hs : s.shortPacket = false) (hl : s.readStartLine = .ok l)
    (hu : replayLines [0, 1, 2, 3] ((forgetResults s).setHeader l) = .ok (u, n)) : execRply s = .next (finishReplay n u) := by
  rw [execRply, if_neg (by simp [hs]), forgetResults_readStartLine]
  exact andThen_eq_next.mpr ⟨l, hl, andThen_eq_next.mpr ⟨(u, n), hu, rfl⟩⟩

/-! ## Where an operation stops -/

/-- Below `PKT_LEN` a byte nothing has written stops the read (log 4). -/
theorem State.memRead_unloaded {a : Nat} (ha : a < s.pktLen.toNat) (hr : s.pkt.read a = none) :
    s.memRead a = .error (.unloadedByte a) := by
  rw [State.memRead, if_pos ha, hr]

/-- The header's byte 5 is read first (R110). -/
theorem State.readStartLine_without_byte5 (hlen : 12 ≤ s.pktLen.toNat) (h5 : s.pkt.read 5 = none) :
    s.readStartLine = .error (.unloadedByte 5) := by
  rw [State.readStartLine, State.memRead_unloaded (by omega) h5]

theorem State.readStartLine_without_byte4 {b : Byte} (hlen : 12 ≤ s.pktLen.toNat) (h5 : s.pkt.read 5 = some b)
    (h4 : s.pkt.read 4 = none) : s.readStartLine = .error (.unloadedByte 4) := by
  rw [State.readStartLine, State.memRead_eq_ok.mpr ⟨by omega, h5⟩, State.memRead_unloaded (by omega) h4]

/-- Reads at consecutive offsets stop where the first of them does. -/
theorem State.memReads_of_first_error {a n : Nat} {f : Fault} (hn : 0 < n) (hf : s.memRead a = .error f) :
    s.memReads a n = .error f := by
  obtain ⟨m, rfl⟩ := Nat.exists_eq_add_of_le' hn
  rw [State.memReads, hf]

theorem liveBody_of_startLine_error {g : LineNo} {f : Fault} (hs : s.shortPacket = false) (hf : s.readStartLine = .error f) :
    liveBody g s = .fault f := by
  simp [liveBody, hs, hf, andThen]

/-- An operation that reads the header stops where that read does. -/
theorem exec_of_startLine_error {i : Instr} {f : Fault} (hi : i = .hdr ∨ (∃ t, i = .live t) ∨ i = .mon ∨ i = .rply)
    (hs : s.shortPacket = false) (hf : s.readStartLine = .error f) : exec i s = .fault f := by
  rcases hi with rfl | ⟨g, rfl⟩ | rfl | rfl
  · simp [exec, execHdr, hs, hf, andThen]
  · exact liveBody_of_startLine_error hs hf
  · exact liveBody_of_startLine_error hs hf
  · simp [exec, execRply, hs, hf, andThen]

/-- PXL of a complete segment stops where the read of the segment's first byte does. -/
theorem execPxl_of_first_error {i : LineIdx} {f : Fault} (hbpl : 0 < s.params.bpl) (hs : s.shortPacket = false)
    (hi : s.hasSegment i.toNat = true) (hf : s.memRead (12 + i.toNat * s.params.bpl) = .error f) :
    execPxl i s = .fault f := by
  rw [execPxl, if_neg (by simp [hs]), if_pos hi, State.readSegment, segmentStart, State.memReads_of_first_error hbpl hf]
  rfl

theorem execRnd_without_line (hok : s.lineOk = true) (hbuf : s.lineBuf = none) : execRnd s = .fault .lineBufInvalid := by
  simp [execRnd, hok, State.renderLine, State.readLine, hbuf, andThen]

end

/-- In a state that meets the invariant every operation completes (R185). -/
theorem State.Inv.exec_completes {s : State} (hs : s.Inv) (i : Instr) : ∃ t, exec i s = .next t := by
  obtain ⟨-, -, p, hp⟩ := hs.bufferOk
  exact Machine.exec_completes hp hs.lineCleared i

/-! ## No operation is refused -/

theorem andThen_ne_refused {α : Type} {e : Except Fault α} {k : α → Result} {r : Refusal} (hk : ∀ x, k x ≠ .refused r) :
    andThen e k ≠ .refused r := by
  cases e with
  | error f => nofun
  | ok x => exact hk x

theorem liveSelected_ne_refused (g : LineNo) (s : State) (r : Refusal) : liveSelected g s ≠ .refused r := by
  unfold liveSelected
  split
  · dsimp only
    split
    · exact andThen_ne_refused nofun
    · nofun
  · nofun

theorem liveBody_ne_refused (g : LineNo) (s : State) (r : Refusal) : liveBody g s ≠ .refused r := by
  unfold liveBody
  dsimp only
  split
  · nofun
  · exact andThen_ne_refused fun l => liveSelected_ne_refused g _ r

theorem exec_ne_refused (i : Instr) (s : State) (r : Refusal) : exec i s ≠ .refused r := by
  cases i with
  | hdr =>
    rw [exec, execHdr]
    split
    · nofun
    · exact andThen_ne_refused nofun
  | sel g =>
    obtain ⟨t, ht⟩ := execSel_completes g s
    rw [exec, ht]
    nofun
  | pxl k =>
    rw [exec, execPxl]
    split
    · nofun
    · split
      · exact andThen_ne_refused nofun
      · nofun
  | rnd =>
    rw [exec, execRnd]
    split
    · nofun
    · exact andThen_ne_refused nofun
  | live g => exact liveBody_ne_refused g s r
  | rply =>
    rw [exec, execRply]
    split
    · nofun
    · exact andThen_ne_refused fun l => andThen_ne_refused nofun
  | mon => exact liveBody_ne_refused _ s r

/-! ## Repeating an operation -/

theorem execHdr_repeats {s t : State} (h : execHdr s = .next t) : execHdr t = .next t := by
  rcases execHdr_cases h with ⟨hs, rfl⟩ | ⟨hs, l, hl, rfl⟩
  · exact execHdr_of_short hs
  · exact execHdr_of_startLine hs (by simpa using hl)

theorem execSel_repeats {s t : State} {g : LineNo} (h : execSel g s = .next t) : execSel g t = .next t := by
  rcases execSel_cases h with ⟨hh, rfl⟩ | ⟨hh, hg, rfl⟩ | ⟨hh, hg, rfl⟩
  · exact execSel_of_no_header hh
  · exact execSel_of_match hh hg
  · exact execSel_of_no_match hh hg

theorem execPxl_repeats {s t : State} {i : LineIdx} (h : execPxl i s = .next t) : execPxl i t = .next t := by
  rcases execPxl_cases h with ⟨hs, rfl⟩ | ⟨hs, hi, l, hl, rfl⟩ | ⟨hs, hi, rfl⟩
  · exact execPxl_of_short hs
  · exact execPxl_of_segment hs hi (by simpa using hl)
  · exact execPxl_of_no_segment hs hi

end Sys2Proof.Machine

namespace Sys2Proof

open Machine

/-- Settles O34: the stop of each read; a state that meets the invariant holds a packet and has a line behind `LINE_OK`, so every
operation completes there; and an operation answers a next state or a read's fault. -/
theorem unreachableStatesStop : Obligations.UnreachableStatesStop := by
  refine ⟨fun s i hlen hi => ⟨fun h5 => ?byte5, fun b h5 h4 => ?byte4⟩, fun s k hbpl hend hr => ?segment,
    fun s hok hbuf => execRnd_without_line hok hbuf, fun s i f hf hs => ?fault, fun s i r => exec_ne_refused i s r⟩
  case byte5 =>
    exact exec_of_startLine_error hi (State.not_shortPacket_iff.mpr hlen) (State.readStartLine_without_byte5 hlen h5)
  case byte4 =>
    exact exec_of_startLine_error hi (State.not_shortPacket_iff.mpr hlen) (State.readStartLine_without_byte4 hlen h5 h4)
  case segment =>
    have hlen : 12 ≤ s.pktLen.toNat := by omega
    exact execPxl_of_first_error hbpl (State.not_shortPacket_iff.mpr hlen) ((State.hasSegment_iff hlen).mpr hend)
      (State.memRead_unloaded (by omega) hr)
  case fault =>
    obtain ⟨t, ht⟩ := hs.exec_completes i
    rw [ht] at hf
    cases hf

/-- Settles O35: an operation writes result registers and `OUT` alone. -/
theorem noOperationWritesThePacket : Obligations.NoOperationWritesThePacket := by
  intro s t i h
  obtain ⟨hpkt, hlen, hparams, hinbox, hanswer, hfree⟩ := exec_sameInputs h
  exact ⟨fun a => by rw [hpkt], hpkt, hlen, hparams, hinbox, hanswer, hfree⟩

/-- Settles O38: what each of HDR, SEL and PXL asks is as it was before the first run; RND finds the same line. -/
theorem repeatingAnOperation : Obligations.RepeatingAnOperation := by
  refine ⟨fun s t i hi h => ?_, fun s l hok hl => ?_⟩
  · rcases hi with rfl | ⟨g, rfl⟩ | ⟨k, rfl⟩
    · exact execHdr_repeats h
    · exact execSel_repeats h
    · exact execPxl_repeats h
  · exact ⟨_, _, lookUp s.params l, execRnd_of_line hok hl,
      execRnd_of_line (s := ((s.emit (lookUp s.params l)).setEmitCnt 1).raise .ok) hok hl, rfl, by simp⟩

end Sys2Proof
end

section
/-!
Proofs of the statements about the packet buffer (spec/20_memory.md), second part: the bytes and the bit no rule interprets (R58, R81,
R83), and the cut of a packet to the buffer's capacity (R69). Two buffers that answer the header and every segment alike are alike to
every operation; two packets that are the same but for their reserved bytes are held by such buffers.
-/

namespace Sys2Proof.Machine

/-! ## Two buffers that answer alike -/

/-- The buffer `m` in place of `PKT` answers the start line and every segment as `s` does. -/
structure State.ReadsAlike (s : State) (m : Memory) : Prop where
  startLine : State.readStartLine { s with pkt := m } = s.readStartLine
  segment   : ∀ i, State.readSegment { s with pkt := m } i = s.readSegment i

/-- Only the packet's length and the parameters enter, so a write of result registers or of `OUT` keeps the two buffers alike. -/
theorem State.ReadsAlike.of_sameInputs {s t : State} {m : Memory} (h : s.ReadsAlike m) (ht : s.SameInputs t) : t.ReadsAlike m where
  startLine := calc
    State.readStartLine { t with pkt := m } = State.readStartLine { s with pkt := m } := State.readStartLine_congr rfl ht.pktLen
    _ = s.readStartLine := h.startLine
    _ = t.readStartLine := (State.readStartLine_congr ht.pkt ht.pktLen).symm
  segment i := calc
    State.readSegment { t with pkt := m } i = State.readSegment { s with pkt := m } i :=
      State.readSegment_congr (s := { s with pkt := m }) (t := { t with pkt := m }) rfl ht.pktLen ht.params i
    _ = s.readSegment i := h.segment i
    _ = t.readSegment i := (State.readSegment_congr ht.pkt ht.pktLen ht.params i).symm

section
variable {s t : State} {m : Memory} (h : s.ReadsAlike m)
include h

theorem State.ReadsAlike.withHeader (l : LineNo) : ((forgetResults s).setHeader l).ReadsAlike m :=
  h.of_sameInputs ⟨rfl, rfl, rfl, rfl, rfl, rfl⟩

theorem execHdr_alike (ht : execHdr s = .next t) : execHdr { s with pkt := m } = .next { t with pkt := m } := by
  rcases execHdr_cases ht with ⟨hs, rfl⟩ | ⟨hs, l, hl, rfl⟩
  · exact execHdr_of_short hs
  · exact execHdr_of_startLine hs (h.startLine.trans hl)

omit h in
/-- SEL reads no byte of the packet (R121). -/
theorem execSel_alike {g : LineNo} (ht : execSel g s = .next t) : execSel g { s with pkt := m } = .next { t with pkt := m } := by
  rcases execSel_cases ht with ⟨hh, rfl⟩ | ⟨hh, hg, rfl⟩ | ⟨hh, hg, rfl⟩
  · exact execSel_of_no_header hh
  · exact execSel_of_match (s := { s with pkt := m }) hh hg
  · exact execSel_of_no_match (s := { s with pkt := m }) hh hg

theorem execPxl_alike {i : LineIdx} (ht : execPxl i s = .next t) : execPxl i { s with pkt := m } = .next { t with pkt := m } := by
  rcases execPxl_cases ht with ⟨hs, rfl⟩ | ⟨hs, hi, l, hl, rfl⟩ | ⟨hs, hi, rfl⟩
  · exact execPxl_of_short hs
  · exact execPxl_of_segment hs hi ((h.segment _).trans hl)
  · exact execPxl_of_no_segment hs hi

omit h in
/-- RND reads no byte of the packet (R147). -/
theorem execRnd_alike (ht : execRnd s = .next t) : execRnd { s with pkt := m } = .next { t with pkt := m } := by
  rcases execRnd_cases ht with ⟨hok, rfl⟩ | ⟨hok, l, hl, rfl⟩
  · exact execRnd_of_no_line hok
  · exact execRnd_of_line (s := { s with pkt := m }) hok hl

theorem liveBody_alike {g : LineNo} (ht : liveBody g s = .next t) : liveBody g { s with pkt := m } = .next { t with pkt := m } := by
  rcases liveBody_cases ht with ⟨hs, rfl⟩ | ⟨hs, l, hl, hcase⟩
  · exact liveBody_of_short hs
  · rw [liveBody_of_startLine (s := { s with pkt := m }) hs (h.startLine.trans hl)]
    rcases hcase with ⟨hg, rfl⟩ | ⟨hg, hi, rfl⟩ | ⟨hg, hi, c, hc, rfl⟩
    · exact liveSelected_of_no_match hg
    · exact liveSelected_of_no_segment hg hi
    · exact liveSelected_of_segment hg hi (((h.withHeader l).segment _).trans (by simpa using hc))

theorem replayLines_alike {is : List LineIdx} {n : Nat} (ht : replayLines is s = .ok (t, n)) :
    replayLines is { s with pkt := m } = .ok ({ t with pkt := m }, n) := by
  induction is generalizing s n with
  | nil =>
    cases ht
    rfl
  | cons i is ih =>
    obtain ⟨u, k, j, hline, hrest, rfl⟩ := replayLines_cons_eq_ok.mp ht
    refine replayLines_cons_eq_ok.mpr ⟨{ u with pkt := m }, k, j, ?_, ih ?_ hrest, rfl⟩
    all_goals rcases replayLine_cases hline with ⟨hi, rfl, rfl⟩ | ⟨hi, rfl, l, hl, rfl⟩
    · exact replayLine_of_no_segment hi
    · exact replayLine_of_segment (s := { s with pkt := m }) hi ((h.segment _).trans hl)
    all_goals exact h.of_sameInputs ⟨rfl, rfl, rfl, rfl, rfl, rfl⟩

theorem execRply_alike (ht : execRply s = .next t) : execRply { s with pkt := m } = .next { t with pkt := m } := by
  rcases execRply_cases ht with ⟨hs, rfl⟩ | ⟨hs, l, u, n, hl, hu, rfl⟩
  · exact execRply_of_short hs
  · exact execRply_of_lines (s := { s with pkt := m }) hs (h.startLine.trans hl) (replayLines_alike (h.withHeader l) hu)

/-- What an operation leaves depends on the packet's header, its segments and its length alone (R57, R58). -/
theorem exec_alike {i : Instr} (ht : exec i s = .next t) : exec i { s with pkt := m } = .next { t with pkt := m } := by
  cases i with
  | hdr => exact execHdr_alike h ht
  | sel g => exact execSel_alike ht
  | pxl k => exact execPxl_alike h ht
  | rnd => exact execRnd_alike ht
  | live g => exact liveBody_alike h ht
  | rply => exact execRply_alike h ht
  | mon => exact liveBody_alike h ht

end

/-! ## Packets that are the same but for their reserved bytes -/

/-- A read of a held packet: its byte, or the stop at its end. -/
theorem State.HoldsPacket.memRead_eq {s : State} {p : List Byte} (hp : s.HoldsPacket p) (a : Nat) :
    s.memRead a = (p[a]?).elim (.error (.beyondPacket a)) .ok := by
  by_cases ha : a < p.length
  · rw [hp.memRead ha, List.getElem?_eq_getElem ha]
    rfl
  · rw [State.memRead_beyond (by rw [hp.1]; omega), List.getElem?_eq_none (by omega)]
    rfl

/-- Where two states read alike from offset `a` on, so do `n` reads from there. -/
theorem State.memReads_eq_of_memRead {s u : State} {a : Nat} (h : ∀ x, a ≤ x → u.memRead x = s.memRead x) (n : Nat) :
    u.memReads a n = s.memReads a n := by
  induction n generalizing a with
  | zero => rfl
  | succ n ih => rw [State.memReads, State.memReads, h a (Nat.le_refl a), ih fun x hx => h x (by omega)]

/-- Bit 7 of byte 5 is the bit of the line word that is dropped (R81). -/
theorem startLineOf_lineWord_congr {b5 c5 : Byte} (h : b5 &&& 0x7F = c5 &&& 0x7F) (b4 : Byte) :
    startLineOf (lineWord b5 b4) = startLineOf (lineWord c5 b4) := by
  have hmod : b5.toNat % 128 = c5.toNat % 128 := by
    have hand := congrArg BitVec.toNat h
    rw [BitVec.toNat_and, BitVec.toNat_and] at hand
    rwa [← Nat.and_two_pow_sub_one_eq_mod _ 7, ← Nat.and_two_pow_sub_one_eq_mod _ 7]
  apply BitVec.eq_of_toNat_eq
  rw [startLineOf_lineWord_toNat, startLineOf_lineWord_toNat]
  omega

/-- From byte 12 on the two packets are the same. -/
theorem SameButReserved.getElem?_eq {p q : List Byte} (h : SameButReserved p q) {a : Nat} (ha : 12 ≤ a) : q[a]? = p[a]? := by
  obtain ⟨-, -, -, hpayload⟩ := h
  obtain ⟨k, rfl⟩ := Nat.exists_eq_add_of_le ha
  rw [← List.getElem?_drop, ← List.getElem?_drop, hpayload]

section
variable {s : State} {m : Memory} {p q : List Byte} (hp : s.HoldsPacket p) (hq : State.HoldsPacket { s with pkt := m } q)
  (hpq : SameButReserved p q)
include hp hq hpq

theorem SameButReserved.readStartLine_eq : State.readStartLine { s with pkt := m } = s.readStartLine := by
  obtain ⟨-, h4, h5, -⟩ := hpq
  simp only [State.readStartLine, Config.lineFieldOffset, hp.memRead_eq, hq.memRead_eq, ← h4]
  cases hp5 : p[5]? with
  | none =>
    have hq5 : q[5]? = none := by simpa [hp5] using h5
    rw [hq5]
  | some b =>
    obtain ⟨c, hq5, hbc⟩ : ∃ c, q[5]? = some c ∧ c &&& 0x7F = b &&& 0x7F := by simpa [hp5, eq_comm] using h5
    rw [hq5]
    cases p[4]? with
    | none => rfl
    | some b4 => exact congrArg Except.ok (startLineOf_lineWord_congr hbc b4)

theorem SameButReserved.readSegment_eq (i : Nat) : State.readSegment { s with pkt := m } i = s.readSegment i := by
  have hread : ∀ x, segmentStart s.params.bpl i ≤ x → State.memRead { s with pkt := m } x = s.memRead x := by
    intro x hx
    have hx' : 12 ≤ x := Nat.le_trans (Nat.le_add_right 12 _) hx
    rw [hp.memRead_eq, hq.memRead_eq, hpq.getElem?_eq hx']
  rw [State.readSegment, State.readSegment, State.memReads_eq_of_memRead hread]

theorem SameButReserved.readsAlike : s.ReadsAlike m :=
  ⟨hpq.readStartLine_eq hp hq, hpq.readSegment_eq hp hq⟩

end

/-! ## The cut of a packet -/

theorem fDecodeHeader_take {n : Nat} (hn : 12 ≤ n) (p : List Byte) : fDecodeHeader (p.take n) = fDecodeHeader p := by
  have hlen : (p.take n).length < 12 ↔ p.length < 12 := by
    rw [List.length_take]
    omega
  simp only [fDecodeHeader, hlen, List.getElem?_take_of_lt (show 4 < n by omega), List.getElem?_take_of_lt (show 5 < n by omega)]

/-- A line needs no byte of the payload beyond its own segment (R131). -/
theorem fDecodePixelLine_take {bpl n : Nat} {i : LineIdx} (hn : i.toNat * bpl + bpl ≤ n) (q : List Byte) :
    fDecodePixelLine bpl (q.take n) i = fDecodePixelLine bpl q i := by
  have hlen : i.toNat * bpl + bpl > (q.take n).length ↔ i.toNat * bpl + bpl > q.length := by
    rw [List.length_take]
    omega
  simp only [fDecodePixelLine, hlen, List.drop_take, List.take_take, Nat.min_eq_left (show bpl ≤ n - i.toNat * bpl by omega)]

/-- The last segment ends at `4 * BPL`. -/
theorem segment_end_le (bpl : Nat) (i : LineIdx) : i.toNat * bpl + bpl ≤ 4 * bpl := by
  rw [← Nat.succ_mul]
  exact Nat.mul_le_mul_right bpl i.isLt

end Sys2Proof.Machine

namespace Sys2Proof

open Machine

/-- Settles O57: the first run completes, and the other buffer answers every read of the header and of a segment alike. -/
theorem uninterpretedBytesInfluenceNothing : Obligations.UninterpretedBytesInfluenceNothing := by
  intro s m p q i hp hq hpq hl
  obtain ⟨t, ht⟩ := exec_completes hp hl i
  exact ⟨t, ht, exec_alike (hpq.readsAlike hp hq) ht⟩

/-- Settles O48: a header is within the first 12 bytes, and with `BPL <= 509` every segment ends within 2048. -/
theorem cuttingAPacketChangesNothing : Obligations.CuttingAPacketChangesNothing := by
  intro prm p hwf
  obtain ⟨-, hbpl, -, -⟩ := prm.wf_iff.mp hwf
  refine ⟨fDecodeHeader_take (by decide) p, fun i => ?_⟩
  have hend := segment_end_le prm.bpl i
  rw [pixelPayload, pixelPayload, List.drop_take]
  exact fDecodePixelLine_take (by omega) _

end Sys2Proof
end

section
/-!
Proofs of the statements about the command words (spec/30_encoding.md), first part: the decoder and the encoder (R84, R86 to R88, R91).
One lemma says which words decode to which instruction, in terms of the word's three fields; the rest follows from it, from the numbers
of the six operations' words, and from the fields of a row's pattern and mask.
-/

namespace Sys2Proof

/-! ## The three fields of a word -/

/-- A word is its three fields (R84). -/
theorem commandWord_fields (w : CmdWord) : commandWord (opField w) (idxField w) (targetField w) = w := by
  have hop : opField w ++ idxField w = w.extractLsb' 15 5 := BitVec.extractLsb'_append_extractLsb'_eq_extractLsb' rfl
  have hall : w.extractLsb' 15 5 ++ targetField w = w.extractLsb' 0 20 := BitVec.extractLsb'_append_extractLsb'_eq_extractLsb' rfl
  rw [commandWord, hop, hall, BitVec.extractLsb'_eq_self]

theorem eq_iff_fields {v w : CmdWord} :
    v = w ↔ opField v = opField w ∧ idxField v = idxField w ∧ targetField v = targetField w := by
  refine ⟨fun h => h ▸ ⟨rfl, rfl, rfl⟩, fun ⟨hop, hidx, htarget⟩ => ?_⟩
  rw [← commandWord_fields v, hop, hidx, htarget, commandWord_fields]

theorem commandWord_toNat (op : BitVec 3) (idx : LineIdx) (target : LineNo) :
    (commandWord op idx target).toNat = op.toNat * 131072 + idx.toNat * 32768 + target.toNat := by
  rw [commandWord, Machine.toNat_append_eq_add, Machine.toNat_append_eq_add]
  omega

/-! ## The decoder and the encoder -/

/-- The fields of the words that stand for an instruction (R87): its operation's number, its operands, zero in a field it does not use.
No word stands for a pseudo-instruction (R91). -/
def HasFields (w : CmdWord) : Instr → Prop
  | .hdr => opField w = 0 ∧ idxField w = 0 ∧ targetField w = 0
  | .sel t => opField w = 1 ∧ idxField w = 0 ∧ targetField w = t
  | .pxl k => opField w = 2 ∧ idxField w = k ∧ targetField w = 0
  | .rnd => opField w = 3 ∧ idxField w = 0 ∧ targetField w = 0
  | .live t => opField w = 4 ∧ idxField w = 0 ∧ targetField w = t
  | .rply => opField w = 5 ∧ idxField w = 0 ∧ targetField w = 0
  | .mon => False

theorem needIdxZero_eq_ok {w : CmdWord} {r : Except DecodeError Instr} {i : Instr} :
    needIdxZero w r = .ok i ↔ idxField w = 0 ∧ r = .ok i := by
  unfold needIdxZero
  split
  · rename_i h
    exact (and_iff_right h).symm
  · rename_i h
    exact ⟨nofun, fun hr => absurd hr.1 h⟩

theorem needTargetZero_eq_ok {w : CmdWord} {r : Except DecodeError Instr} {i : Instr} :
    needTargetZero w r = .ok i ↔ targetField w = 0 ∧ r = .ok i := by
  unfold needTargetZero
  split
  · rename_i h
    exact (and_iff_right h).symm
  · rename_i h
    exact ⟨nofun, fun hr => absurd hr.1 h⟩

theorem HasFields.decode_eq {w : CmdWord} {i : Instr} (h : HasFields w i) : decode w = .ok i := by
  cases i with
  | mon => exact h.elim
  | _ =>
    obtain ⟨hop, hidx, htarget⟩ := h
    simp [decode, hop, needIdxZero_eq_ok, needTargetZero_eq_ok, hidx, htarget]

theorem hasFields_of_decode_eq {w : CmdWord} {i : Instr} (h : decode w = .ok i) : HasFields w i := by
  unfold decode at h
  split at h
  case h_7 => cases h
  all_goals
    rename_i hop
    simp only [needIdxZero_eq_ok, needTargetZero_eq_ok, Except.ok.injEq] at h
  case h_1 | h_4 | h_6 =>
    obtain ⟨hidx, htarget, rfl⟩ := h
    exact ⟨BitVec.eq_of_toNat_eq hop, hidx, htarget⟩
  case h_2 | h_5 =>
    obtain ⟨hidx, rfl⟩ := h
    exact ⟨BitVec.eq_of_toNat_eq hop, hidx, rfl⟩
  case h_3 =>
    obtain ⟨htarget, rfl⟩ := h
    exact ⟨BitVec.eq_of_toNat_eq hop, rfl, htarget⟩

/-- Which words decode to which instruction (R87, R88). -/
theorem decode_eq_ok_iff {w : CmdWord} {i : Instr} : decode w = .ok i ↔ HasFields w i :=
  ⟨hasFields_of_decode_eq, HasFields.decode_eq⟩

/-- Of the instructions, the pseudo-instruction alone is not well formed (R91). -/
theorem Instr.expand_eq_self_iff (i : Instr) : i.expand = i ↔ i ≠ .mon := by
  cases i <;> simp [Instr.expand]

theorem Instr.wellFormed_iff (i : Instr) : i.wellFormed = true ↔ i ≠ .mon := by
  rw [Instr.wellFormed, beq_iff_eq, Instr.expand_eq_self_iff]

theorem hasFields_encode {i : Instr} (hi : i ≠ .mon) : HasFields (encode i) i := by
  cases i with
  | mon => exact absurd rfl hi
  | hdr => exact Laws.Fields.hdr
  | sel t => exact Laws.Fields.sel t
  | pxl k => exact Laws.Fields.pxl k
  | rnd => exact Laws.Fields.rnd
  | live t => exact Laws.Fields.live t
  | rply => exact Laws.Fields.rply

theorem HasFields.ne_mon {w : CmdWord} {i : Instr} (h : HasFields w i) : i ≠ .mon := by
  rintro rfl
  exact h

/-- One word has an instruction's fields (R87). -/
theorem HasFields.eq {v w : CmdWord} {i : Instr} (hv : HasFields v i) (hw : HasFields w i) : v = w := by
  cases i with
  | mon => exact hv.elim
  | _ =>
    obtain ⟨hop, hidx, htarget⟩ := hv
    obtain ⟨hop', hidx', htarget'⟩ := hw
    exact eq_iff_fields.mpr ⟨hop.trans hop'.symm, hidx.trans hidx'.symm, htarget.trans htarget'.symm⟩

/-- Settles O1: an instruction's word has its fields, and a word with an instruction's fields decodes to it. -/
theorem decodeOfEncodeIsTheInstruction : Obligations.DecodeOfEncodeIsTheInstruction :=
  fun i hi => (hasFields_encode (i.wellFormed_iff.mp hi)).decode_eq

/-- Settles O2: a word that decodes has its instruction's fields, as the instruction's word has. -/
theorem encodeOfDecodeIsTheWord : Obligations.EncodeOfDecodeIsTheWord := by
  intro w i h
  have hw := decode_eq_ok_iff.mp h
  exact ⟨i.wellFormed_iff.mpr hw.ne_mon, (hasFields_encode hw.ne_mon).eq hw⟩

/-! ## The words as numbers -/

theorem encode_sel_toNat (t : LineNo) : (encode (.sel t)).toNat = 0x20000 + t.toNat := commandWord_toNat 1 0 t

theorem encode_pxl_toNat (k : LineIdx) : (encode (.pxl k)).toNat = 0x40000 + k.toNat * 0x8000 := commandWord_toNat 2 k 0

theorem encode_live_toNat (t : LineNo) : (encode (.live t)).toNat = 0x80000 + t.toNat := commandWord_toNat 4 0 t

/-- A word written as the number of an instruction's word decodes to that instruction. -/
theorem decode_ofNat_eq {n : Nat} {i : Instr} (hi : i ≠ .mon) (hn : (encode i).toNat = n) :
    decode (BitVec.ofNat 20 n) = .ok i := by
  rw [← hn, BitVec.ofNat_toNat, BitVec.setWidth_eq]
  exact (hasFields_encode hi).decode_eq

/-- Settles O3: each number is that of the operation's word. -/
theorem opcodeMapNumbers : Obligations.OpcodeMapNumbers :=
  ⟨decode_ofNat_eq nofun rfl, fun t => decode_ofNat_eq nofun (encode_sel_toNat t),
    fun k => decode_ofNat_eq nofun (encode_pxl_toNat k), decode_ofNat_eq nofun rfl,
    fun t => decode_ofNat_eq nofun (encode_live_toNat t), decode_ofNat_eq nofun rfl⟩

/-- The numbers of the legal words (R87, R88): one word each of HDR, RND and RPLY, four of PXL, 32768 each of SEL and LIVE. -/
def legalNumbers : Finset Nat :=
  {0, 0x40000, 0x48000, 0x50000, 0x58000, 0x60000, 0xA0000} ∪ (Finset.Ico 0x20000 0x28000 ∪ Finset.Ico 0x80000 0x88000)

theorem mem_legalNumbers {n : Nat} :
    n ∈ legalNumbers ↔ (n = 0 ∨ n = 0x40000 ∨ n = 0x48000 ∨ n = 0x50000 ∨ n = 0x58000 ∨ n = 0x60000 ∨ n = 0xA0000) ∨
      (0x20000 ≤ n ∧ n < 0x28000) ∨ (0x80000 ≤ n ∧ n < 0x88000) := by
  simp only [legalNumbers, Finset.mem_union, Finset.mem_insert, Finset.mem_singleton, Finset.mem_Ico]

theorem legalNumbers_card : legalNumbers.card = 65543 := by
  have hsel : Disjoint (Finset.Ico 0x20000 0x28000) (Finset.Ico 0x80000 0x88000) := by
    simp only [Finset.disjoint_left, Finset.mem_Ico]
    omega
  have hrest : Disjoint {0, 0x40000, 0x48000, 0x50000, 0x58000, 0x60000, 0xA0000}
      (Finset.Ico 0x20000 0x28000 ∪ Finset.Ico 0x80000 0x88000) := by
    simp only [Finset.disjoint_left, Finset.mem_union, Finset.mem_insert, Finset.mem_singleton, Finset.mem_Ico]
    omega
  rw [legalNumbers, Finset.card_union_of_disjoint hrest, Finset.card_union_of_disjoint hsel, Nat.card_Ico, Nat.card_Ico]
  rfl

theorem encode_toNat_mem_legalNumbers (i : Instr) : (encode i).toNat ∈ legalNumbers := by
  rw [mem_legalNumbers]
  cases i with
  | sel t =>
    rw [encode_sel_toNat]
    omega
  | live t =>
    rw [encode_live_toNat]
    omega
  | pxl k =>
    rw [encode_pxl_toNat]
    omega
  | _ => decide

theorem exists_encode_toNat_of_mem_legalNumbers {n : Nat} (hn : n ∈ legalNumbers) : ∃ i, i ≠ .mon ∧ (encode i).toNat = n := by
  rcases mem_legalNumbers.mp hn with (rfl | rfl | rfl | rfl | rfl | rfl | rfl) | ⟨hlo, hhi⟩ | ⟨hlo, hhi⟩
  · exact ⟨.hdr, nofun, rfl⟩
  · exact ⟨.pxl 0, nofun, rfl⟩
  · exact ⟨.pxl 1, nofun, rfl⟩
  · exact ⟨.pxl 2, nofun, rfl⟩
  · exact ⟨.pxl 3, nofun, rfl⟩
  · exact ⟨.rnd, nofun, rfl⟩
  · exact ⟨.rply, nofun, rfl⟩
  · exact ⟨.sel (BitVec.ofNat 15 (n - 0x20000)), nofun, by rw [encode_sel_toNat, BitVec.toNat_ofNat]; omega⟩
  · exact ⟨.live (BitVec.ofNat 15 (n - 0x80000)), nofun, by rw [encode_live_toNat, BitVec.toNat_ofNat]; omega⟩

/-- Which words are legal (R88). -/
theorem exists_decode_eq_ok_iff (w : CmdWord) : (∃ i, decode w = .ok i) ↔ w.toNat ∈ legalNumbers := by
  constructor
  · rintro ⟨i, h⟩
    obtain ⟨-, rfl⟩ := encodeOfDecodeIsTheWord w i h
    exact encode_toNat_mem_legalNumbers i
  · intro h
    obtain ⟨i, hi, hw⟩ := exists_encode_toNat_of_mem_legalNumbers h
    exact ⟨i, BitVec.eq_of_toNat_eq hw ▸ (hasFields_encode hi).decode_eq⟩

theorem decode_toOption_isSome_iff (w : CmdWord) : (decode w).toOption.isSome = true ↔ w.toNat ∈ legalNumbers := by
  rw [← exists_decode_eq_ok_iff]
  cases decode w <;> simp [Except.toOption]

theorem exists_decode_eq_error_iff (w : CmdWord) : (∃ e, decode w = .error e) ↔ w.toNat ∉ legalNumbers := by
  rw [← exists_decode_eq_ok_iff]
  cases decode w <;> simp

/-- Settles O4: the numbers that are not a legal word's, told apart by the three fields. -/
theorem illegalWordsAreExactlyThese : Obligations.IllegalWordsAreExactlyThese := by
  intro w
  have hw := w.isLt
  rw [exists_decode_eq_error_iff, mem_legalNumbers]
  dsimp only
  omega

/-- Settles O5: the numbers kept are those of the legal words, all of them below 2^20. -/
theorem legalWordCount : Obligations.LegalWordCount := by
  rw [Obligations.LegalWordCount, ← List.toFinset_card_of_nodup (List.nodup_range.filter _), ← legalNumbers_card]
  refine congrArg Finset.card (Finset.ext fun n => ?_)
  rw [List.mem_toFinset, List.mem_filter, List.mem_range, decode_toOption_isSome_iff, BitVec.toNat_ofNat, mem_legalNumbers,
    mem_legalNumbers]
  omega

/-- Settles O8: the fields of each word, written out in it. -/
theorem sampleWordsDecode : Obligations.SampleWordsDecode :=
  ⟨rfl, rfl, rfl, rfl, rfl, rfl, rfl, rfl, rfl⟩

/-! ## The opcode table's rows -/

/-- A row fixes `op`, and asks of `idx` and of `target` that the bits under its mask are zero (R87). -/
theorem OpcodeRow.holds_iff_fields (m : String) (op : BitVec 3) (idxMask : LineIdx) (targetMask : LineNo) (w : CmdWord) :
    OpcodeRow.holds ⟨m, commandWord op 0 0, commandWord (BitVec.allOnes 3) idxMask targetMask⟩ w = true ↔
      opField w = op ∧ idxField w &&& idxMask = 0 ∧ targetField w &&& targetMask = 0 := by
  have hfields (v : CmdWord) : opField (w &&& v) = opField w &&& opField v ∧ idxField (w &&& v) = idxField w &&& idxField v ∧
      targetField (w &&& v) = targetField w &&& targetField v :=
    ⟨BitVec.extractLsb'_and, BitVec.extractLsb'_and, BitVec.extractLsb'_and⟩
  simp only [OpcodeRow.holds, beq_iff_eq, eq_iff_fields, hfields, fields_commandWord, BitVec.and_allOnes]

/-- The row of an operation without an operand. -/
theorem OpcodeRow.holds_iff_no_operand (m : String) (op : BitVec 3) (w : CmdWord) :
    OpcodeRow.holds ⟨m, commandWord op 0 0, commandWord (BitVec.allOnes 3) (BitVec.allOnes 2) (BitVec.allOnes 15)⟩ w = true ↔
      opField w = op ∧ idxField w = 0 ∧ targetField w = 0 := by
  rw [holds_iff_fields, BitVec.and_allOnes, BitVec.and_allOnes]

/-- The row of an operation on a target line. -/
theorem OpcodeRow.holds_iff_target_operand (m : String) (op : BitVec 3) (w : CmdWord) :
    OpcodeRow.holds ⟨m, commandWord op 0 0, commandWord (BitVec.allOnes 3) (BitVec.allOnes 2) 0⟩ w = true ↔
      opField w = op ∧ idxField w = 0 := by
  have hzero : targetField w &&& 0 = 0 := BitVec.and_zero
  rw [holds_iff_fields, BitVec.and_allOnes, and_iff_left hzero]

/-- The row of an operation on a line index. -/
theorem OpcodeRow.holds_iff_idx_operand (m : String) (op : BitVec 3) (w : CmdWord) :
    OpcodeRow.holds ⟨m, commandWord op 0 0, commandWord (BitVec.allOnes 3) 0 (BitVec.allOnes 15)⟩ w = true ↔
      opField w = op ∧ targetField w = 0 := by
  have hzero : idxField w &&& 0 = 0 := BitVec.and_zero
  rw [holds_iff_fields, BitVec.and_allOnes, and_iff_right hzero]

/-- A word with an instruction's fields is of the row with the instruction's mnemonic. -/
theorem HasFields.exists_row {w : CmdWord} {i : Instr} (h : HasFields w i) :
    ∃ r ∈ opcodeRows, r.mnemonic = mnemonicOf i ∧ r.holds w = true := by
  cases i with
  | mon => exact h.elim
  | hdr => exact ⟨opcodeRows[0], List.getElem_mem _, rfl, (OpcodeRow.holds_iff_no_operand _ 0 w).mpr h⟩
  | sel t =>
    obtain ⟨hop, hidx, -⟩ := h
    exact ⟨opcodeRows[1], List.getElem_mem _, rfl, (OpcodeRow.holds_iff_target_operand _ 1 w).mpr ⟨hop, hidx⟩⟩
  | pxl k =>
    obtain ⟨hop, -, htarget⟩ := h
    exact ⟨opcodeRows[2], List.getElem_mem _, rfl, (OpcodeRow.holds_iff_idx_operand _ 2 w).mpr ⟨hop, htarget⟩⟩
  | rnd => exact ⟨opcodeRows[3], List.getElem_mem _, rfl, (OpcodeRow.holds_iff_no_operand _ 3 w).mpr h⟩
  | live t =>
    obtain ⟨hop, hidx, -⟩ := h
    exact ⟨opcodeRows[4], List.getElem_mem _, rfl, (OpcodeRow.holds_iff_target_operand _ 4 w).mpr ⟨hop, hidx⟩⟩
  | rply => exact ⟨opcodeRows[5], List.getElem_mem _, rfl, (OpcodeRow.holds_iff_no_operand _ 5 w).mpr h⟩

/-- A word of a row has the fields of an instruction with the row's mnemonic. -/
theorem OpcodeRow.exists_hasFields {r : OpcodeRow} {w : CmdWord} (hr : r ∈ opcodeRows) (h : r.holds w = true) :
    ∃ i, HasFields w i ∧ mnemonicOf i = r.mnemonic := by
  simp only [opcodeRows, List.mem_cons, List.not_mem_nil, or_false] at hr
  rcases hr with rfl | rfl | rfl | rfl | rfl | rfl
  · exact ⟨.hdr, (holds_iff_no_operand _ 0 w).mp h, rfl⟩
  · obtain ⟨hop, hidx⟩ := (holds_iff_target_operand _ 1 w).mp h
    exact ⟨.sel (targetField w), ⟨hop, hidx, rfl⟩, rfl⟩
  · obtain ⟨hop, htarget⟩ := (holds_iff_idx_operand _ 2 w).mp h
    exact ⟨.pxl (idxField w), ⟨hop, rfl, htarget⟩, rfl⟩
  · exact ⟨.rnd, (holds_iff_no_operand _ 3 w).mp h, rfl⟩
  · obtain ⟨hop, hidx⟩ := (holds_iff_target_operand _ 4 w).mp h
    exact ⟨.live (targetField w), ⟨hop, hidx, rfl⟩, rfl⟩
  · exact ⟨.rply, (holds_iff_no_operand _ 5 w).mp h, rfl⟩

/-- No two rows have one mnemonic. -/
theorem opcodeRows_mnemonic_injective : ∀ r ∈ opcodeRows, ∀ r' ∈ opcodeRows, r.mnemonic = r'.mnemonic → r = r' := by
  decide

/-- Settles O6: a word has the fields of an instruction exactly when it is of the row with its mnemonic; it has the fields of one
instruction, and a mnemonic has one row. -/
theorem decodeFollowsTheOpcodeTable : Obligations.DecodeFollowsTheOpcodeTable := by
  refine fun w => ⟨fun i h => (decode_eq_ok_iff.mp h).exists_row, fun r hr hw => ?_, fun r hr r' hr' hw hw' => ?_⟩
  · obtain ⟨i, hi, hm⟩ := OpcodeRow.exists_hasFields hr hw
    exact ⟨i, hi.decode_eq, hm⟩
  · obtain ⟨i, hi, hm⟩ := OpcodeRow.exists_hasFields hr hw
    obtain ⟨i', hi', hm'⟩ := OpcodeRow.exists_hasFields hr' hw'
    have heq : i = i' := Except.ok.inj (hi.decode_eq.symm.trans hi'.decode_eq)
    exact opcodeRows_mnemonic_injective r hr r' hr' (by rw [← hm, ← hm', heq])

/-! ## The pseudo-instruction -/

/-- Settles O7: MON's expansion, its word, and its meaning, which is LIVE's for line 136. -/
theorem monIsLive136 : Obligations.MonIsLive136 := by
  refine ⟨fun i => ?_, rfl, rfl, rfl, fun s => rfl⟩
  rw [ne_eq, Instr.expand_eq_self_iff, not_not]

end Sys2Proof
end

section
/-!
Proofs of the statements about the command words (spec/30_encoding.md), second part: the assembler's lines and their text (R90, R91).
A line whose mnemonic is a word of letters and whose operand has at most five decimal digits is read back from its text; the lines of
the instructions are such lines.
-/

namespace Sys2Proof.Machine

/-! ## Lines -/

theorem assemble_asmLine (i : Instr) : assemble (asmLine i) = some i := by
  cases i with
  | sel t => simp [asmLine, assemble, t.isLt]
  | pxl k => simp [asmLine, assemble, k.isLt]
  | live t => simp [asmLine, assemble, t.isLt]
  | _ => rfl

theorem asmLine_of_assemble {l : AsmLine} {i : Instr} (h : assemble l = some i) : asmLine i = l := by
  obtain ⟨m, o⟩ := l
  unfold assemble at h
  cases o with
  | none =>
    dsimp only at h
    split_ifs at h with hm hm hm hm
    all_goals
      cases h
      subst hm
      rfl
  | some n =>
    dsimp only at h
    split_ifs at h with hm hn hm hn hm hn
    all_goals
      cases h
      subst hm
      simp only [asmLine, BitVec.toNat_ofNat, Nat.mod_eq_of_lt hn]

theorem assembleCommand_asmLine (i : Instr) : assembleCommand (asmLine i) = some (.command (encode i)) := by
  rw [assembleCommand, assemble_asmLine]
  rfl

/-! ## The words of a text -/

theorem stripComment_of_not_mem {t : Text} (h : '-' ∉ t) : stripComment t = t := by
  induction t with
  | nil => rfl
  | cons c cs ih =>
    obtain ⟨hc, hcs⟩ := not_or.mp (mt List.mem_cons.mpr h)
    rw [stripComment, if_neg fun hd => hc hd.1.symm, ih hcs]

/-- A text without a blank. -/
def Unparted (t : Text) : Prop := ∀ c ∈ t, c ≠ ' ' ∧ c ≠ '\t'

/-- A text without a blank goes on the present word. -/
theorem wordsFrom_append {t : Text} (ht : Unparted t) (word rest : Text) :
    wordsFrom word (t ++ rest) = wordsFrom (word ++ t) rest := by
  induction t generalizing word with
  | nil => rw [List.nil_append, List.append_nil]
  | cons c cs ih =>
    obtain ⟨hc, hcs⟩ := List.forall_mem_cons.mp ht
    rw [List.cons_append, wordsFrom, if_neg (not_or.mpr hc), ih hcs, List.append_assoc, List.singleton_append]

theorem wordsFrom_one {t : Text} (ht : Unparted t) (hne : t ≠ []) : wordsFrom [] t = [t] := by
  have h := wordsFrom_append ht [] []
  rw [List.append_nil, List.nil_append] at h
  rw [h, wordsFrom, if_neg hne]

theorem wordsFrom_two {t u : Text} (ht : Unparted t) (hu : Unparted u) (htne : t ≠ []) (hune : u ≠ []) :
    wordsFrom [] (t ++ ' ' :: u) = [t, u] := by
  rw [wordsFrom_append ht, List.nil_append, wordsFrom, if_pos (.inl rfl), if_neg htne, wordsFrom_one hu hune]

/-! ## Decimal numbers -/

/-- The character of a decimal digit. -/
def digitChar (d : Nat) : Char := Char.ofNat (48 + d)

theorem digitChar_toNat {d : Nat} (hd : d < 10) : (digitChar d).toNat = 48 + d := by
  interval_cases d <;> rfl

theorem digitValue_digitChar {d : Nat} (hd : d < 10) : digitValue 10 (digitChar d) = some d := by
  interval_cases d <;> rfl

/-- The digits of a number are those of its tenth and its last one. -/
theorem decimalFrom_succ (fuel n : Nat) :
    decimalFrom (fuel + 1) n = (if n < 10 then [] else decimalFrom fuel (n / 10)) ++ [digitChar (n % 10)] := rfl

theorem decimalFrom_ne_nil (fuel n : Nat) : decimalFrom (fuel + 1) n ≠ [] := by
  rw [decimalFrom_succ]
  exact List.append_ne_nil_of_right_ne_nil _ (List.cons_ne_nil _ _)

theorem decimalFrom_digits (fuel n : Nat) : ∀ c ∈ decimalFrom fuel n, ∃ d < 10, c = digitChar d := by
  induction fuel generalizing n with
  | zero => exact List.forall_mem_nil _
  | succ fuel ih =>
    intro c hc
    rw [decimalFrom_succ] at hc
    rcases List.mem_append.mp hc with hc | hc
    · split at hc
      · cases hc
      · exact ih _ c hc
    · exact ⟨n % 10, Nat.mod_lt n (by decide), List.mem_singleton.mp hc⟩

theorem numberFrom_snoc {base acc m d : Nat} {t : Text} {c : Char} (ht : numberFrom base acc t = some m)
    (hc : digitValue base c = some d) : numberFrom base acc (t ++ [c]) = some (m * base + d) := by
  induction t generalizing acc with
  | nil =>
    cases ht
    simp [numberFrom, hc]
  | cons x xs ih =>
    rw [List.cons_append]
    unfold numberFrom at ht ⊢
    split at ht
    · exact ih ht
    · cases ht

theorem numberFrom_decimalFrom {fuel n : Nat} (hn : n < 10 ^ fuel) : numberFrom 10 0 (decimalFrom fuel n) = some n := by
  induction fuel generalizing n with
  | zero =>
    obtain rfl : n = 0 := by omega
    rfl
  | succ fuel ih =>
    have hfront : numberFrom 10 0 (if n < 10 then [] else decimalFrom fuel (n / 10)) = some (n / 10) := by
      split
      · rename_i hlt
        rw [Nat.div_eq_of_lt hlt]
        rfl
      · exact ih (by omega)
    rw [decimalFrom_succ, numberFrom_snoc hfront (digitValue_digitChar (Nat.mod_lt n (by decide))), Nat.div_add_mod']

theorem readNumber_decimalFrom {fuel n : Nat} (hn : n < 10 ^ (fuel + 1)) : readNumber (decimalFrom (fuel + 1) n) = some n := by
  have hx : 'x' ∉ decimalFrom (fuel + 1) n := fun h => by
    obtain ⟨d, hd, hc⟩ := decimalFrom_digits _ _ _ h
    have := digitChar_toNat hd
    rw [← hc] at this
    have : 'x'.toNat = 120 := rfl
    omega
  have htake : (decimalFrom (fuel + 1) n).take 2 ≠ ['0', 'x'] := fun h =>
    hx (List.mem_of_mem_take (i := 2) (h ▸ by decide))
  rw [readNumber, if_neg htake, if_neg (decimalFrom_ne_nil fuel n), numberFrom_decimalFrom hn]

/-! ## Texts of lines -/

/-- A word of characters from 'A' upward, as every mnemonic is. -/
def IsMnemonic (w : Text) : Prop := w ≠ [] ∧ ∀ c ∈ w, 65 ≤ c.toNat

/-- No character of a mnemonic or of a number is a blank or begins a comment: these come before '0'. -/
theorem unparted_of_le {t : Text} (h : ∀ c ∈ t, 48 ≤ c.toNat) : Unparted t := by
  refine fun c hc => ⟨?_, ?_⟩
  all_goals
    rintro rfl
    exact absurd (h _ hc) (by decide)

theorem dash_not_mem_of_le {t : Text} (h : ∀ c ∈ t, 48 ≤ c.toNat) : '-' ∉ t :=
  fun hc => absurd (h _ hc) (by decide)

theorem decimalFrom_le (fuel n : Nat) : ∀ c ∈ decimalFrom fuel n, 48 ≤ c.toNat := by
  intro c hc
  obtain ⟨d, hd, rfl⟩ := decimalFrom_digits fuel n c hc
  rw [digitChar_toNat hd]
  exact Nat.le_add_right 48 d

/-- A line that begins with a mnemonic is a command, not a directive. -/
theorem IsMnemonic.ne_directive {w : Text} (hw : IsMnemonic w) (u : Text) : w ≠ '.' :: u := by
  rintro rfl
  exact absurd (hw.2 '.' List.mem_cons_self) (by decide)

theorem readWords_mnemonic {w : Text} (hw : IsMnemonic w) : readWords [w] = assembleCommand ⟨w, none⟩ := by
  simp only [readWords, hw.ne_directive, if_false]

theorem readWords_mnemonic_operand {w v : Text} {n : Nat} (hw : IsMnemonic w) (hv : readNumber v = some n) :
    readWords [w, v] = assembleCommand ⟨w, some n⟩ := by
  simp only [readWords, hw.ne_directive, if_false, hv]

theorem readText_textOf {l : AsmLine} (hm : IsMnemonic l.mnemonic) (hn : ∀ n, l.operand = some n → n < 10 ^ 5) :
    readText (textOf l) = assembleCommand l := by
  obtain ⟨w, o⟩ := l
  have ⟨hne, hupper⟩ := hm
  have hw : ∀ c ∈ w, 48 ≤ c.toNat := fun c hc => Nat.le_trans (by decide) (hupper c hc)
  cases o with
  | none =>
    rw [textOf, readText, stripComment_of_not_mem (dash_not_mem_of_le hw), wordsFrom_one (unparted_of_le hw) hne,
      readWords_mnemonic hm]
  | some n =>
    have hd := decimalFrom_le 5 n
    have hdash : '-' ∉ w ++ ' ' :: decimalFrom 5 n := by
      simp [dash_not_mem_of_le hw, dash_not_mem_of_le hd]
    rw [textOf, readText, stripComment_of_not_mem hdash,
      wordsFrom_two (unparted_of_le hw) (unparted_of_le hd) hne (decimalFrom_ne_nil 4 n),
      readWords_mnemonic_operand hm (readNumber_decimalFrom (hn n rfl))]

theorem isMnemonic_asmLine (i : Instr) : IsMnemonic (asmLine i).mnemonic := by
  cases i <;> simp [IsMnemonic, asmLine]

/-- No operand of an instruction has more than five decimal digits (R84). -/
theorem asmLine_operand_lt {i : Instr} {n : Nat} (h : (asmLine i).operand = some n) : n < 10 ^ 5 := by
  cases i <;> cases h <;> omega

end Sys2Proof.Machine

namespace Sys2Proof

open Machine

/-- Settles O9: each mnemonic's line, and what a line that assembles must be. -/
theorem assemblerRoundTrip : Obligations.AssemblerRoundTrip :=
  ⟨assemble_asmLine, fun _ _ => asmLine_of_assemble⟩

/-- Settles O10: the text of a line is read back as the line, and an instruction's line assembles to it. -/
theorem textRoundTrip : Obligations.TextRoundTrip := by
  intro i
  rw [readText_textOf (isMnemonic_asmLine i) fun n => asmLine_operand_lt, assembleCommand_asmLine]

end Sys2Proof
end

section
/-!
Proofs of the statements about the command words (spec/30_encoding.md), third part: MON on a state that holds a packet (R91, R155), by
what LIVE does there in terms of the function level; and the construction of a packet (R92), by what packing and unpacking do to a
line.
-/

namespace Sys2Proof.Machine

/-! ## What the function level says of a held packet -/

theorem State.HoldsPacket.startLine_of_decode {s : State} {p : List Byte} {l : LineNo} (hp : s.HoldsPacket p)
    (hl : fDecodeHeader p = some l) : s.shortPacket = false ∧ s.readStartLine = .ok l := by
  have hlen : 12 ≤ p.length := by
    by_contra hlt
    rw [fDecodeHeader, if_pos (Nat.not_le.mp hlt)] at hl
    cases hl
  obtain ⟨l', hr, hl'⟩ := hp.readStartLine hlen
  cases hl.symm.trans hl'
  exact ⟨State.not_shortPacket_iff.mpr (hp.1 ▸ hlen), hr⟩

theorem fDecodePixelLine_eq_none_iff {bpl : Nat} {q : List Byte} {i : LineIdx} :
    fDecodePixelLine bpl q i = none ↔ q.length < i.toNat * bpl + bpl := by
  simp [fDecodePixelLine]

/-- A segment is complete exactly when the function level decodes its line. -/
theorem State.HoldsPacket.hasSegment_eq_isSome {s : State} {p : List Byte} (hp : s.HoldsPacket p) (i : LineIdx) :
    s.hasSegment i.toNat = (fDecodePixelLine s.params.bpl (pixelPayload p) i).isSome := by
  rw [hp.hasSegment, Bool.eq_iff_iff, decide_eq_true_eq, Option.isSome_iff_ne_none, ne_eq, fDecodePixelLine_eq_none_iff, pixelPayload,
    List.length_drop, Nat.not_lt]

theorem State.HoldsPacket.readSegment_of_decode {s : State} {p : List Byte} {i : LineIdx} {c : List ColorIndex}
    (hp : s.HoldsPacket p) (hlen : s.shortPacket = false) (hc : fDecodePixelLine s.params.bpl (pixelPayload p) i = some c) :
    s.readSegment i.toNat = .ok c := by
  have hi : s.hasSegment i.toNat = true := by rw [hp.hasSegment_eq_isSome, hc, Option.isSome_some]
  have hend := (State.hasSegment_iff (State.not_shortPacket_iff.mp hlen)).mp hi
  obtain ⟨c', hr, hc', -⟩ := hp.readSegment (hp.1 ▸ hend)
  cases hc.symm.trans hc'
  exact hr

/-- The operation level's selection is the function level's (R120). -/
theorem fSelectLine_eq_some_iff {l t : LineNo} {i : LineIdx} :
    fSelectLine l.toNat t.toNat = some i ↔ targetInPacket l t = true ∧ selectedIdx l t = i := by
  rw [targetInPacket_iff, fSelectLine]
  split <;> simp [*, selectedIdx]

theorem fSelectLine_eq_none_iff {l t : LineNo} : fSelectLine l.toNat t.toNat = none ↔ targetInPacket l t = false := by
  rw [← Bool.not_eq_true, targetInPacket_iff, fSelectLine, ite_eq_right_iff]
  simp

/-! ## LIVE and MON on a held packet -/

/-- The state after the record of a selected line came out, with every register's value written out (R155). -/
theorem live_rendered_eq (s : State) (l : LineNo) (i : LineIdx) (c : List ColorIndex) :
    ((((((forgetResults s).setHeader l).setSelection i).setLine c).emit (lookUp s.params c)).setEmitCnt 1).raise .ok =
      { s with startLine := l, hdrOk := true, selIdx := i, matched := true, lineBuf := some c, lineOk := true,
               out := s.out ++ [fRender s.params c], emitCnt := 1, code := 0 } := by
  simp only [forgetResults, State.clearSelection, State.clearLine, State.setHeader, State.setSelection, State.setLine, State.emit,
    State.setEmitCnt, State.raise, Condition.code, lookUp, fRender]
  rfl

section
variable {s : State} {p : List Byte} (hp : s.HoldsPacket p) {t l : LineNo}
include hp

theorem State.HoldsPacket.liveBody_short (hlen : p.length < 12) : liveBody t s =
    .next { s with startLine := 0, hdrOk := false, selIdx := 0, matched := false, lineBuf := none, lineOk := false,
                   emitCnt := 0, code := 1 } :=
  liveBody_of_short (State.shortPacket_iff.mpr (hp.1 ▸ hlen))

theorem State.HoldsPacket.liveBody_no_match (hl : fDecodeHeader p = some l) (ht : fSelectLine l.toNat t.toNat = none) : liveBody t s =
    .next { s with startLine := l, hdrOk := true, selIdx := 0, matched := false, lineBuf := none, lineOk := false,
                   emitCnt := 0, code := 2 } := by
  obtain ⟨hs, hr⟩ := hp.startLine_of_decode hl
  exact (liveBody_of_startLine hs hr).trans
    (liveSelected_of_no_match (s := (forgetResults s).setHeader l) (fSelectLine_eq_none_iff.mp ht))

theorem State.HoldsPacket.liveBody_incomplete {i : LineIdx} (hl : fDecodeHeader p = some l) (ht : fSelectLine l.toNat t.toNat = some i)
    (hc : fDecodePixelLine s.params.bpl (pixelPayload p) i = none) : liveBody t s =
    .next { s with startLine := l, hdrOk := true, selIdx := i, matched := true, lineBuf := none, lineOk := false,
                   emitCnt := 0, code := 3 } := by
  obtain ⟨hs, hr⟩ := hp.startLine_of_decode hl
  obtain ⟨hg, rfl⟩ := fSelectLine_eq_some_iff.mp ht
  have hi : s.hasSegment (selectedIdx l t).toNat = false := by rw [hp.hasSegment_eq_isSome, hc, Option.isSome_none]
  exact (liveBody_of_startLine hs hr).trans (liveSelected_of_no_segment (s := (forgetResults s).setHeader l) hg hi)

theorem State.HoldsPacket.liveBody_line {i : LineIdx} {c : List ColorIndex} (hl : fDecodeHeader p = some l)
    (ht : fSelectLine l.toNat t.toNat = some i) (hc : fDecodePixelLine s.params.bpl (pixelPayload p) i = some c) : liveBody t s =
    .next { s with startLine := l, hdrOk := true, selIdx := i, matched := true, lineBuf := some c, lineOk := true,
                   out := s.out ++ [fRender s.params c], emitCnt := 1, code := 0 } := by
  obtain ⟨hs, hr⟩ := hp.startLine_of_decode hl
  obtain ⟨hg, rfl⟩ := fSelectLine_eq_some_iff.mp ht
  have hi : s.hasSegment (selectedIdx l t).toNat = true := by rw [hp.hasSegment_eq_isSome, hc, Option.isSome_some]
  have hread : ((forgetResults s).setHeader l).readSegment (selectedIdx l t).toNat = .ok c := by
    simpa using hp.readSegment_of_decode hs hc
  rw [liveBody_of_startLine hs hr, liveSelected_of_segment (s := (forgetResults s).setHeader l) hg hi hread]
  exact congrArg Host.Outcome.next (live_rendered_eq s l (selectedIdx l t) c)

end

/-- Line 136 is in the packets that start at 133 to 136 (R123). -/
theorem fSelectLine_middleLine (l : Nat) :
    fSelectLine l Config.middleLine.toNat = if 133 ≤ l ∧ l ≤ 136 then some (BitVec.ofNat 2 (136 - l)) else none := by
  have hiff : (l ≤ 136 ∧ 136 < l + 4) ↔ 133 ≤ l ∧ l ≤ 136 := by omega
  exact if_congr hiff rfl rfl

/-! ## Packing a line and building a packet -/

theorem fSplit_fJoin (l r : ColorIndex) : fSplit (fJoin l r) = (l, r) := by
  refine Prod.ext ?_ ?_
  all_goals
    apply BitVec.eq_of_getLsbD_eq
    intro k hk
    interval_cases k <;> simp [fSplit, fJoin]

theorem unpackBytes_packLine : ∀ {c : List ColorIndex}, c.length % 2 = 0 → unpackBytes (packLine c) = c
  | [], _ => rfl
  | [_], h => absurd h (by simp)
  | left :: right :: cs, h => by
    have h : cs.length % 2 = 0 := by
      simp only [List.length_cons] at h
      omega
    rw [packLine, unpackBytes, leftPixel_eq, rightPixel_eq, fSplit_fJoin, unpackBytes_packLine h]

/-- A byte holds two colour indices. -/
theorem packLine_drop (n : Nat) (c : List ColorIndex) : (packLine c).drop n = packLine (c.drop (2 * n)) := by
  induction n generalizing c with
  | zero => rfl
  | succ n ih =>
    match c with
    | [] => simp [packLine]
    | [_] => simp [packLine, Nat.mul_succ]
    | left :: right :: cs => simpa [packLine, Nat.mul_succ] using ih cs

theorem packLine_take (n : Nat) (c : List ColorIndex) : (packLine c).take n = packLine (c.take (2 * n)) := by
  induction n generalizing c with
  | zero => simp [packLine]
  | succ n ih =>
    match c with
    | [] => simp [packLine]
    | [_] => simp [packLine, Nat.mul_succ]
    | left :: right :: cs => simpa [packLine, Nat.mul_succ] using ih cs

theorem packLine_length : ∀ c : List ColorIndex, (packLine c).length = c.length / 2
  | [] => rfl
  | [_] => by simp [packLine]
  | _ :: _ :: cs => by
    rw [packLine, List.length_cons, packLine_length cs, List.length_cons, List.length_cons]
    omega

/-- Line `i` of packed colour indices is the `i`-th `2 * BPL` of them (R134). -/
theorem fDecodePixelLine_packLine {bpl r : Nat} {i : LineIdx} {c : List ColorIndex} (hi : i.toNat < r)
    (hc : c.length = 2 * bpl * r) :
    fDecodePixelLine bpl (packLine c) i = some ((c.drop (2 * bpl * i.toNat)).take (2 * bpl)) := by
  have hend : i.toNat * bpl + bpl ≤ bpl * r := by
    rw [← Nat.succ_mul, Nat.mul_comm]
    exact Nat.mul_le_mul_left bpl hi
  have hlen : (packLine c).length = bpl * r := by
    rw [packLine_length, hc, Nat.mul_assoc, Nat.mul_div_cancel_left _ (by decide)]
  have hwhole : ((c.drop (2 * (i.toNat * bpl))).take (2 * bpl)).length = 2 * bpl := by
    rw [List.length_take, List.length_drop, hc, Nat.mul_assoc]
    omega
  rw [fDecodePixelLine, if_neg (by rw [hlen]; exact Nat.not_lt.mpr hend), ← unpackBytes_eq, packLine_drop, packLine_take,
    unpackBytes_packLine (by rw [hwhole, Nat.mul_mod_right]), Nat.mul_comm i.toNat bpl, Nat.mul_assoc]

section
variable (rsv0 : Vector Byte 4) (s : LineNo) (top : Bool) (rsv1 : Vector Byte 6) (payload : List Byte)

/-- Bytes 4 and 5 of a built packet decode to its start line, whatever bit 7 of byte 5 is (R92). -/
theorem fDecodeHeader_buildPacket : fDecodeHeader (buildPacket rsv0 s top rsv1 payload) = some s := by
  have h4 : (buildPacket rsv0 s top rsv1 payload)[4]? = some (s.setWidth 8) := by simp [buildPacket]
  have h5 : (buildPacket rsv0 s top rsv1 payload)[5]? = some ((s >>> 8).setWidth 8 ||| if top then 0x80 else 0) := by
    simp [buildPacket, List.getElem?_append_right]
  have hlen : ¬ (buildPacket rsv0 s top rsv1 payload).length < 12 := by simp [buildPacket]; omega
  simp only [fDecodeHeader, if_neg hlen, h4, h5, Option.some.injEq]
  apply BitVec.eq_of_getLsbD_eq
  intro k hk
  cases top <;> interval_cases k <;> simp [Config.lineMask]

theorem pixelPayload_buildPacket : pixelPayload (buildPacket rsv0 s top rsv1 payload) = payload :=
  List.drop_left' (by simp)

end

end Sys2Proof.Machine

namespace Sys2Proof

open Machine

/-- Settles O27: MON is LIVE for line 136, which is in the packets that start at 133 to 136. -/
theorem monRendersLine136 : Obligations.MonRendersLine136 := by
  intro s p hp
  have hmatch {l : LineNo} (hlo : 133 ≤ l.toNat) (hhi : l.toNat ≤ 136) :
      fSelectLine l.toNat Config.middleLine.toNat = some (BitVec.ofNat 2 (136 - l.toNat)) := by
    rw [fSelectLine_middleLine, if_pos ⟨hlo, hhi⟩]
  refine ⟨hp.liveBody_short, fun l hl hno => ?_, fun l hl hlo hhi => hp.liveBody_incomplete hl (hmatch hlo hhi),
    fun l c hl hlo hhi => hp.liveBody_line hl (hmatch hlo hhi)⟩
  exact hp.liveBody_no_match hl (by rw [fSelectLine_middleLine, if_neg hno])

/-- Settles O46: the header's bytes stand before the payload, and the payload's packed lines decode back. -/
theorem builtPacketsDecodeBack : Obligations.BuiltPacketsDecodeBack := by
  refine fun rsv0 rsv1 s top bpl r c hr hc => ⟨fDecodeHeader_buildPacket rsv0 s top rsv1 _, fun i hi => ?_⟩
  rw [pixelPayload_buildPacket]
  exact fDecodePixelLine_packLine hi hc

end Sys2Proof
end

section
/-!
Proofs of the statements about the header (spec/40_header.md): the start line as a function of bytes 4 and 5 (R110, R112), at the
function level and at the operation level; and HDR, which writes it (R111).
-/

namespace Sys2Proof.Machine

/-! ## The start line of bytes 4 and 5 -/

theorem startLineOf_lineWord_eq_ofNat (b5 b4 : Byte) :
    startLineOf (lineWord b5 b4) = BitVec.ofNat 15 (b5.toNat * 256 + b4.toNat) := by
  apply BitVec.eq_of_toNat_eq
  rw [startLineOf_lineWord_toNat, BitVec.toNat_ofNat]

/-- Masking bit 15 off, as the function level does, is taking bits 14:0, as the operations do (R81, R110). -/
theorem setWidth_and_lineMask (w : LineWord) : (w &&& Config.lineMask).setWidth 15 = startLineOf w := by
  have hmask : w.toNat &&& 0x7FFF = w.toNat % 2 ^ 15 := Nat.and_two_pow_sub_one_eq_mod w.toNat 15
  apply BitVec.eq_of_toNat_eq
  rw [startLineOf, BitVec.extractLsb'_toNat, BitVec.toNat_setWidth, BitVec.toNat_and, Config.lineMask,
    show BitVec.toNat (0x7FFF : LineWord) = 0x7FFF from rfl, hmask, Nat.mod_mod, Nat.shiftRight_zero]

/-! ## `F_decodeHeader` -/

theorem fDecodeHeader_of_short {p : List Byte} (hp : p.length < 12) : fDecodeHeader p = none :=
  if_pos hp

/-- With 12 bytes or more the result is the start line of bytes 4 and 5 (R110). -/
theorem fDecodeHeader_of_bytes {p : List Byte} {b4 b5 : Byte} (hp : 12 ≤ p.length) (h4 : p[4]? = some b4) (h5 : p[5]? = some b5) :
    fDecodeHeader p = some (startLineOf (lineWord b5 b4)) := by
  simp only [fDecodeHeader, if_neg (Nat.not_lt.mpr hp), h4, h5, setWidth_and_lineMask, lineWord, BitVec.or_comm]

theorem fDecodeHeader_eq_none_iff {p : List Byte} : fDecodeHeader p = none ↔ p.length < 12 := by
  refine ⟨fun h => ?_, fDecodeHeader_of_short⟩
  by_contra hp
  have hp : 12 ≤ p.length := Nat.not_lt.mp hp
  rw [fDecodeHeader_of_bytes hp (List.getElem?_eq_getElem (by omega)) (List.getElem?_eq_getElem (by omega))] at h
  cases h

/-! ## HDR -/

/-- The converse of `State.readStartLine_eq_ok`. -/
theorem State.readStartLine_of_bytes {s : State} {b4 b5 : Byte} (hlen : 12 ≤ s.pktLen.toNat) (h4 : s.pkt.read 4 = some b4)
    (h5 : s.pkt.read 5 = some b5) : s.readStartLine = .ok (startLineOf (lineWord b5 b4)) := by
  have h4 : s.memRead 4 = .ok b4 := State.memRead_eq_ok.mpr ⟨by omega, h4⟩
  have h5 : s.memRead 5 = .ok b5 := State.memRead_eq_ok.mpr ⟨by omega, h5⟩
  simp only [State.readStartLine, Config.lineFieldOffset, h4, h5]

end Sys2Proof.Machine

namespace Sys2Proof

open Machine

/-- Settles O40: the function level's result is the start line of bytes 4 and 5, and that is a 15-bit number. -/
theorem headerFormula : Obligations.HeaderFormula := by
  refine ⟨fun p => fDecodeHeader_of_short, fun p b4 b5 hp h4 h5 => ⟨_, fDecodeHeader_of_bytes hp h4 h5, ?_⟩⟩
  have := b4.isLt
  rw [startLineOf_lineWord_toNat]
  omega

/-- Settles O41: as numbers, a start line is `256 * byte 5 + byte 4` without its bit 15, so byte 5 is known but for its bit 7. -/
theorem eachStartLineHasTwoBytePairs : Obligations.EachStartLineHasTwoBytePairs := by
  intro l b4 b5
  have := b4.isLt
  have := b5.isLt
  have := l.isLt
  rw [← BitVec.toNat_inj, startLineOf_lineWord_toNat]
  omega

/-- Settles O22: HDR on a short packet and on one that holds a header, and the same two cases as the function level tells them apart. -/
theorem hdrDecodesTheStartLine : Obligations.HdrDecodesTheStartLine := by
  refine ⟨rfl, fun s hlen => execHdr_of_short (State.shortPacket_iff.mpr hlen), fun s b4 b5 hlen h4 h5 => ?_,
    fun s p hp => ⟨fun l hl => ?_, fun hnone => ?_⟩⟩
  · rw [← startLineOf_lineWord_eq_ofNat]
    exact execHdr_of_startLine (State.not_shortPacket_iff.mpr hlen) (State.readStartLine_of_bytes hlen h4 h5)
  · obtain ⟨hlong, hread⟩ := hp.startLine_of_decode hl
    exact execHdr_of_startLine hlong hread
  · exact execHdr_of_short (State.shortPacket_iff.mpr (hp.1 ▸ fDecodeHeader_eq_none_iff.mp hnone))

end Sys2Proof
end

section
/-!
Proofs of the statements about line selection (spec/41_select.md): the function level's selector on integers (R120, R123), the
operations' comparator on 15-bit line numbers (R122), and SEL, which writes what it finds (R121).
-/

namespace Sys2Proof.Machine

/-! ## `F_selectLine` -/

theorem exists_fSelectLine_eq_some_iff (s t : Nat) : (∃ k, fSelectLine s t = some k) ↔ s ≤ t ∧ t < s + 4 := by
  rw [← Option.isSome_iff_exists, fSelectLine, Option.isSome_ite]

theorem fSelectLine_add_toNat (s : Nat) (k : LineIdx) : fSelectLine s (s + k.toNat) = some k := by
  rw [fSelectLine, if_pos ⟨Nat.le_add_right s _, Nat.add_lt_add_left k.isLt s⟩, Nat.add_sub_cancel_left, BitVec.ofNat_toNat,
    BitVec.setWidth_eq]

/-- The index found leads from the start line back to the target: below 4, the difference fits the two bits. -/
theorem add_toNat_of_fSelectLine {s t : Nat} {k : LineIdx} (h : fSelectLine s t = some k) : s + k.toNat = t := by
  obtain ⟨hlo, hhi⟩ := (exists_fSelectLine_eq_some_iff s t).mp ⟨k, h⟩
  rw [fSelectLine, if_pos ⟨hlo, hhi⟩] at h
  cases h
  rw [BitVec.toNat_ofNat]
  omega

/-! ## The comparator as a 16-bit adder -/

theorem setWidth_add_four_toNat (s : LineNo) : (s.setWidth 16 + 4#16).toNat = s.toNat + 4 := by
  have := s.isLt
  simp only [BitVec.toNat_add, BitVec.toNat_setWidth, BitVec.toNat_ofNat]
  omega

end Sys2Proof.Machine

namespace Sys2Proof

open Machine

/-- Settles O42: an index is answered exactly when the start line plus it is the target, and some index is exactly when the target is
one of the four lines. -/
theorem selectorMatchesExactlyFourLines : Obligations.SelectorMatchesExactlyFourLines := by
  refine ⟨exists_fSelectLine_eq_some_iff, fun s t k => ⟨add_toNat_of_fSelectLine, ?_⟩, fun s t => ?_⟩
  · rintro rfl
    exact fSelectLine_add_toNat s k
  · rw [Option.eq_none_iff_forall_ne_some, ← not_exists, exists_fSelectLine_eq_some_iff]
    omega

/-- Settles O43: the comparator is `F_selectLine`'s test on the numbers' values, and `s + 4` is at most 32771, which 16 bits hold. -/
theorem selectorNeedsNoWrapAround : Obligations.SelectorNeedsNoWrapAround := by
  refine fun s t => ⟨?_, ?_⟩
  · rw [fSelectLine_eq_some_iff, and_iff_left rfl]
  · rw [targetInPacket_iff, BitVec.le_def, BitVec.lt_def, setWidth_add_four_toNat,
      BitVec.toNat_setWidth_of_le (by decide), BitVec.toNat_setWidth_of_le (by decide)]

/-- Settles O23: without a header, with the target in the packet, and with the target outside it. -/
theorem selFindsTheLineIndex : Obligations.SelFindsTheLineIndex :=
  fun _ t => ⟨encode_sel_toNat t, execSel_of_no_header,
    fun hh hlo hhi => execSel_of_match hh (targetInPacket_iff.mpr ⟨hlo, hhi⟩),
    fun hh hno => execSel_of_no_match hh (Bool.eq_false_iff.mpr (mt targetInPacket_iff.mp hno))⟩

end Sys2Proof
end

section
/-!
Proofs of the statements about unpacking (spec/42_unpack.md): a byte and its two colour indices (R130), a line and the bytes of its
segment (R131, R134), which segments are complete (R135), and PXL, which decodes one of them (R132).
-/

namespace Sys2Proof.Machine

/-! ## A byte and its two colour indices -/

theorem fSplit_fst_toNat (b : Byte) : (fSplit b).1.toNat = b.toNat / 16 := by
  have := b.isLt
  rw [← leftPixel_eq, leftPixel, BitVec.extractLsb'_toNat, Nat.shiftRight_eq_div_pow]
  omega

theorem fSplit_snd_toNat (b : Byte) : (fSplit b).2.toNat = b.toNat % 16 := by
  rw [← rightPixel_eq, rightPixel, BitVec.extractLsb'_toNat, Nat.shiftRight_zero]

/-- The halves of the byte `fJoin l r` are `l` and `r`, so as a number it is `16 * l + r`. -/
theorem fJoin_toNat (l r : ColorIndex) : (fJoin l r).toNat = 16 * l.toNat + r.toNat := by
  have hl : (fJoin l r).toNat / 16 = l.toNat := by rw [← fSplit_fst_toNat, fSplit_fJoin]
  have hr : (fJoin l r).toNat % 16 = r.toNat := by rw [← fSplit_snd_toNat, fSplit_fJoin]
  omega

theorem fJoin_fSplit (b : Byte) : fJoin (fSplit b).1 (fSplit b).2 = b := by
  apply BitVec.eq_of_toNat_eq
  rw [fJoin_toNat, fSplit_fst_toNat, fSplit_snd_toNat, Nat.div_add_mod]

theorem fSplit_eq_ofNat (b : Byte) : fSplit b = (BitVec.ofNat 4 (b.toNat / 16), BitVec.ofNat 4 (b.toNat % 16)) := by
  rw [← fSplit_fst_toNat, ← fSplit_snd_toNat, BitVec.ofNat_toNat, BitVec.ofNat_toNat, BitVec.setWidth_eq, BitVec.setWidth_eq]

/-! ## A line and the bytes of its segment -/

theorem packLine_unpackBytes (bs : List Byte) : packLine (unpackBytes bs) = bs := by
  induction bs with
  | nil => rfl
  | cons b bs ih => rw [unpackBytes, packLine, ih, leftPixel_eq, rightPixel_eq, fJoin_fSplit]

/-- A line that decodes is its segment's bytes, unpacked (R131). -/
theorem eq_unpackBytes_of_fDecodePixelLine {bpl : Nat} {q : List Byte} {i : LineIdx} {l : List ColorIndex}
    (h : fDecodePixelLine bpl q i = some l) : l = unpackBytes ((q.drop (i.toNat * bpl)).take bpl) := by
  rw [unpackBytes_eq]
  exact (Option.some.inj ((Option.ite_none_left_eq_some.mp h).2)).symm

/-! ## Which segments are complete -/

theorem fDecodePixelLine_isSome_iff {bpl : Nat} {q : List Byte} {i : LineIdx} :
    (fDecodePixelLine bpl q i).isSome ↔ (i.toNat + 1) * bpl ≤ q.length := by
  rw [Option.isSome_iff_ne_none, ne_eq, fDecodePixelLine_eq_none_iff, Nat.not_lt, Nat.succ_mul]

/-- The indices below `L` are those whose segment ends within the payload (R135). -/
theorem lt_completeLines_iff {bpl n : Nat} (hbpl : 0 < bpl) (i : LineIdx) :
    i.toNat < completeLines bpl (12 + n) ↔ (i.toNat + 1) * bpl ≤ n := by
  rw [completeLines, Nat.add_sub_cancel_left, Nat.lt_min, and_iff_right i.isLt, ← Nat.succ_le_iff, Nat.le_div_iff_mul_le hbpl]

theorem fDecodePixelLine_eq_none_mono {bpl : Nat} {q : List Byte} {i k : LineIdx} (hik : i.toNat ≤ k.toNat)
    (hi : fDecodePixelLine bpl q i = none) : fDecodePixelLine bpl q k = none := by
  rw [fDecodePixelLine_eq_none_iff] at hi ⊢
  have := Nat.mul_le_mul_right bpl hik
  omega

/-- An index below `n` decodes from the payload's first `n * BPL` bytes alone. -/
theorem fDecodePixelLine_take_lines {bpl n : Nat} {i : LineIdx} (hi : i.toNat < n) (q : List Byte) :
    fDecodePixelLine bpl (q.take (n * bpl)) i = fDecodePixelLine bpl q i :=
  fDecodePixelLine_take (by rw [← Nat.succ_mul]; exact Nat.mul_le_mul_right bpl hi) q

/-! ## PXL -/

/-- Reads of written bytes below `PKT_LEN` answer. -/
theorem State.memReads_answers {s : State} {a n : Nat} (hend : a + n ≤ s.pktLen.toNat)
    (hread : ∀ j, j < n → ∃ b, s.pkt.read (a + j) = some b) : ∃ bs, s.memReads a n = .ok bs := by
  induction n generalizing a with
  | zero => exact ⟨[], rfl⟩
  | succ n ih =>
    obtain ⟨b, hb⟩ := hread 0 (Nat.succ_pos n)
    obtain ⟨bs, hbs⟩ := ih (a := a + 1) (by omega) fun j hj => by
      rw [Nat.succ_add_eq_add_succ]
      exact hread (j + 1) (Nat.succ_lt_succ hj)
    have hfirst : s.memRead a = .ok b := State.memRead_eq_ok.mpr ⟨by omega, hb⟩
    exact ⟨b :: bs, by rw [State.memReads, hfirst, hbs]⟩

/-- A complete segment whose bytes are all written is read. -/
theorem State.readSegment_of_bytes {s : State} {i : Nat} (hend : 12 + (i * s.params.bpl + s.params.bpl) ≤ s.pktLen.toNat)
    (hread : ∀ j, j < s.params.bpl → ∃ b, s.pkt.read (12 + i * s.params.bpl + j) = some b) :
    ∃ l, s.readSegment i = .ok l := by
  obtain ⟨bs, hbs⟩ := State.memReads_answers (a := segmentStart s.params.bpl i) (by rwa [segmentStart, Nat.add_assoc]) hread
  exact ⟨unpackBytes bs, by rw [State.readSegment, hbs]⟩

/-- The elements of a segment that is read, as numbers: the byte's high nibble, then its low one (R55, R132). -/
theorem State.readSegment_nibbles {s : State} {i j : Nat} {l : List ColorIndex} {b : Byte} (h : s.readSegment i = .ok l)
    (hj : j < s.params.bpl) (hb : s.pkt.read (12 + i * s.params.bpl + j) = some b) :
    l[2 * j]? = some (BitVec.ofNat 4 (b.toNat / 16)) ∧ l[2 * j + 1]? = some (BitVec.ofNat 4 (b.toNat % 16)) := by
  obtain ⟨b', hb', hleft, hright⟩ := (State.readSegment_elements h).2 j hj
  cases hb.symm.trans hb'
  rw [hleft, hright, fSplit_eq_ofNat]
  exact ⟨rfl, rfl⟩

end Sys2Proof.Machine

namespace Sys2Proof

open Machine

/-- Settles O24: on a short packet, on an incomplete segment and on a complete one; and the last two as the function level tells them
apart on the payload of a held packet. -/
theorem pxlUnpacksOneSegment : Obligations.PxlUnpacksOneSegment := by
  refine ⟨encode_pxl_toNat, fun s i hlen => execPxl_of_short (State.shortPacket_iff.mpr hlen), fun s i hlen hend => ?incomplete,
    fun s i hend hread => ?complete, fun s p i hp hlen => ?held⟩
  case incomplete =>
    exact execPxl_of_no_segment (State.not_shortPacket_iff.mpr hlen)
      (Bool.eq_false_iff.mpr (mt (State.hasSegment_iff hlen).mp (Nat.not_le.mpr hend)))
  case complete =>
    have hlen : 12 ≤ s.pktLen.toNat := Nat.le_trans (Nat.le_add_right 12 _) hend
    obtain ⟨l, hl⟩ := State.readSegment_of_bytes hend hread
    exact ⟨l, execPxl_of_segment (State.not_shortPacket_iff.mpr hlen) ((State.hasSegment_iff hlen).mpr hend) hl,
      (State.readSegment_elements hl).1, fun j b => State.readSegment_nibbles hl⟩
  case held =>
    have hs : s.shortPacket = false := State.not_shortPacket_iff.mpr (hp.1 ▸ hlen)
    refine ⟨fun l hl => ?_, fun hnone => ?_⟩
    · have hi : s.hasSegment i.toNat = true := by rw [hp.hasSegment_eq_isSome, hl, Option.isSome_some]
      exact execPxl_of_segment hs hi (hp.readSegment_of_decode hs hl)
    · have hi : s.hasSegment i.toNat = false := by rw [hp.hasSegment_eq_isSome, hnone, Option.isSome_none]
      exact execPxl_of_no_segment hs hi

/-- Settles O45: each of packing and unpacking undoes the other. -/
theorem packedLinesDecodeBack : Obligations.PackedLinesDecodeBack := by
  refine ⟨fun bpl r i c _ _ => fDecodePixelLine_packLine, fun bpl i q l hl => ?_⟩
  rw [eq_unpackBytes_of_fDecodePixelLine hl, packLine_unpackBytes]

/-- Settles O47: an index below `L` needs no byte beyond the first `L * BPL`, and from `L` on the length alone makes both payloads
fail. -/
theorem completeLinesAreAPrefix : Obligations.CompleteLinesAreAPrefix := by
  refine fun bpl q hbpl => ⟨fun i => ⟨fDecodePixelLine_isSome_iff, ?_, fun k => fDecodePixelLine_eq_none_mono⟩,
    fun q' hlen htake i => ?_⟩
  · rw [fDecodePixelLine_isSome_iff, lt_completeLines_iff hbpl]
  · by_cases hi : i.toNat < completeLines bpl (12 + q.length)
    · rw [← fDecodePixelLine_take_lines hi q', htake, fDecodePixelLine_take_lines hi]
    · have hend : q.length < i.toNat * bpl + bpl := by
        rwa [lt_completeLines_iff hbpl, Nat.not_le, Nat.succ_mul] at hi
      rw [fDecodePixelLine_eq_none_iff.mpr hend, fDecodePixelLine_eq_none_iff.mpr (hlen ▸ hend)]

/-- Settles O44: the halves of a byte are its quotient and remainder by 16, and joining them is `16 * left + right`. -/
theorem splitIsABijection : Obligations.SplitIsABijection :=
  ⟨fun b => ⟨fSplit_fst_toNat b, fSplit_snd_toNat b, fJoin_fSplit b⟩, fun l r => ⟨fSplit_fJoin l r, fJoin_toNat l r⟩⟩

end Sys2Proof
end

section
/-!
Proofs of the statements about rendering (spec/43_render.md): the look-up and the glyphs of the byte 0xA5 (R145, R146), RND, which
renders the line buffer (R147), and the fused form of unpacking and look-up in what LIVE emits (R149).
-/

namespace Sys2Proof.Machine

/-- Each lane looks up its own element (R149). -/
theorem lookUp_getElem? (prm : Config.Params) {l : List ColorIndex} {k : Nat} {c : ColorIndex} (h : l[k]? = some c) :
    (lookUp prm l)[k]? = some (prm.glyph c) := by
  rw [lookUp, List.getElem?_map, h, Option.map_some]

/-- The look-up of a segment that is read, straight from its bytes: byte `j` gives glyph `2j` from its high nibble and glyph `2j + 1`
from its low one (R149). -/
theorem State.readSegment_glyphs {s : State} {i j : Nat} {l : List ColorIndex} (h : s.readSegment i = .ok l) (hj : j < s.params.bpl) :
    ∃ b, s.pkt.read (12 + i * s.params.bpl + j) = some b ∧
      (lookUp s.params l)[2 * j]? = some (s.params.glyph (b.extractLsb' 4 4)) ∧
      (lookUp s.params l)[2 * j + 1]? = some (s.params.glyph (b.extractLsb' 0 4)) := by
  obtain ⟨b, hb, hleft, hright⟩ := (State.readSegment_elements h).2 j hj
  rw [← leftPixel_eq, leftPixel] at hleft
  rw [← rightPixel_eq, rightPixel] at hright
  exact ⟨b, hb, lookUp_getElem? s.params hleft, lookUp_getElem? s.params hright⟩

/-- When LIVE counts a record, the segment that `SEL_IDX` names is complete and its look-up is the record appended (R155): the other
three outcomes count none. -/
theorem liveBody_emits {g : LineNo} {s t : State} (h : liveBody g s = .next t) (he : t.emitCnt = 1) :
    s.shortPacket = false ∧ s.hasSegment t.selIdx.toNat = true ∧
      ∃ c, s.readSegment t.selIdx.toNat = .ok c ∧ t.out = s.out ++ [lookUp s.params c] := by
  rcases liveBody_cases h with ⟨-, rfl⟩ | ⟨hs, l, -, ⟨-, rfl⟩ | ⟨-, -, rfl⟩ | ⟨-, hi, c, hc, rfl⟩⟩
  case inr.inr.inr => exact ⟨hs, hi, c, hc, by simp⟩
  all_goals simp at he

end Sys2Proof.Machine

namespace Sys2Proof

open Machine

/-- Settles O51: the record is the look-up of the selected segment, and each byte read from the buffer is the held packet's, since the
segment ends within it. -/
theorem liveRecordIsTheFusedLookUp : Obligations.LiveRecordIsTheFusedLookUp := by
  intro s t p g hp h he
  obtain ⟨hs, hi, c, hc, hout⟩ := liveBody_emits h he
  have hend := (State.hasSegment_iff (State.not_shortPacket_iff.mp hs)).mp hi
  refine ⟨lookUp s.params c, hout, (lookUp_length _ _).trans (State.readSegment_elements hc).1, fun j hj => ?_⟩
  obtain ⟨b, hb, hglyphs⟩ := State.readSegment_glyphs hc hj
  have hin : 12 + t.selIdx.toNat * s.params.bpl + j < p.length := hp.1 ▸ (by omega)
  exact ⟨b, (hp.2 _ hin).symm.trans hb, hglyphs⟩

/-- Settles O25: RND without a line, and RND with one, whose look-up is the record. -/
theorem rndEmitsTheLine : Obligations.RndEmitsTheLine :=
  ⟨by decide, fun _ => execRnd_of_no_line, fun s l hok hl hlen =>
    ⟨lookUp s.params l, execRnd_of_line hok hl, (lookUp_length _ _).trans hlen, fun _ _ _ => lookUp_getElem? s.params⟩⟩

/-- Settles O50: the byte's nibbles are 10 and 5, and every admitted palette has `r` and `G` there. -/
theorem byteA5RendersAsRG : Obligations.ByteA5RendersAsRG := by
  have hsplit : fSplit 0xA5 = (10, 5) := by decide
  refine ⟨hsplit, fun prm hwf => ?_⟩
  obtain ⟨-, -, hG, hr⟩ := prm.wf_iff.mp hwf
  have hunpack : unpackBytes [0xA5] = [10, 5] := by rw [unpackBytes_eq, List.flatMap_singleton, hsplit]
  simp only [fRender, hunpack, List.map_cons, List.map_nil, Config.Params.glyph_ten, Config.Params.glyph_five, hG, hr]

end Sys2Proof
end

section
/-!
Proofs of the statements about the composite operations (spec/44_composite.md): LIVE and RPLY on a state that holds a packet, in terms
of the function level (R155, R156, R135); and the sequences of primitives they stand for after a load (R157).
-/

namespace Sys2Proof.Machine

/-! ## One line rendered, and several in order -/

/-- One line of RPLY, where the function level decodes the line's segment to `line`: a line that decodes stays in `LINE_BUF` and is
rendered; one that does not leaves `LINE_BUF` invalid and emits nothing (R156). -/
def State.showLine (line : Option (List ColorIndex)) (s : State) : State :=
  { s with lineBuf := line, lineOk := line.isSome, out := s.out ++ line.toList.map (fRender s.params) }

/-- The lines of the indices `is`, one after the other (R156). -/
def State.showLines (lines : LineIdx → Option (List ColorIndex)) (is : List LineIdx) (s : State) : State :=
  is.foldl (fun u i => u.showLine (lines i)) s

theorem State.showLine_some (s : State) (c : List ColorIndex) : s.showLine (some c) = (s.setLine c).emit (lookUp s.params c) := rfl

theorem State.showLine_none (s : State) : s.showLine none = s.clearLine := by
  simp [State.showLine, State.clearLine]

theorem State.showLine_sameInputs (s : State) (line : Option (List ColorIndex)) : s.SameInputs (s.showLine line) := by
  constructor <;> rfl

@[simp] theorem State.showLine_params (s : State) (line : Option (List ColorIndex)) : (s.showLine line).params = s.params := rfl

theorem State.showLines_cons (lines : LineIdx → Option (List ColorIndex)) (i : LineIdx) (is : List LineIdx) (s : State) :
    s.showLines lines (i :: is) = (s.showLine (lines i)).showLines lines is := rfl

/-- The last index decides the line buffer, and every line that decodes is appended to `OUT`. -/
theorem State.showLines_concat (lines : LineIdx → Option (List ColorIndex)) (is : List LineIdx) (k : LineIdx) (s : State) :
    s.showLines lines (is ++ [k]) =
      { s with lineBuf := lines k, lineOk := (lines k).isSome,
               out := s.out ++ ((is ++ [k]).filterMap lines).map (fRender s.params) } := by
  induction is generalizing s with
  | nil => cases hk : lines k <;> simp [State.showLines, State.showLine, hk]
  | cons i is ih =>
    rw [List.cons_append, State.showLines_cons, ih]
    cases hi : lines i <;> simp [State.showLine, hi]

theorem State.showLines_four (lines : LineIdx → Option (List ColorIndex)) (s : State) :
    s.showLines lines [0, 1, 2, 3] =
      { s with lineBuf := lines 3, lineOk := (lines 3).isSome,
               out := s.out ++ ([0, 1, 2, 3].filterMap lines).map (fRender s.params) } :=
  State.showLines_concat lines [0, 1, 2] 3 s

/-- Rendering neither reads nor writes the last outcome, `EMIT_CNT` and `CODE`. -/
theorem State.showLines_outcome (lines : LineIdx → Option (List ColorIndex)) (is : List LineIdx) (s : State) (n : Nat) (c : Condition) :
    ((s.setEmitCnt n).raise c).showLines lines is = ((s.showLines lines is).setEmitCnt n).raise c := by
  induction is generalizing s with
  | nil => rfl
  | cons i is ih => exact ih (s.showLine (lines i))

/-! ## RPLY on a held packet -/

theorem finishReplay_eq (n : Nat) (s : State) :
    finishReplay n s = { s with emitCnt := BitVec.ofNat 3 n, code := if n = 4 then 0 else 3 } := by
  have hcode : (if n = 4 then Condition.ok else .insufficientData).code = if n = 4 then 0 else 3 := apply_ite Condition.code _ _ _
  rw [← hcode]
  rfl

section
variable {s : State} {p : List Byte} (hp : s.HoldsPacket p)
include hp

theorem State.HoldsPacket.replayLine (hs : s.shortPacket = false) (i : LineIdx) :
    replayLine i s = .ok (s.showLine (fDecodePixelLine s.params.bpl (pixelPayload p) i),
      (fDecodePixelLine s.params.bpl (pixelPayload p) i).toList.length) := by
  have hi := hp.hasSegment_eq_isSome i
  cases hc : fDecodePixelLine s.params.bpl (pixelPayload p) i with
  | none =>
    rw [State.showLine_none]
    exact replayLine_of_no_segment (by rw [hi, hc, Option.isSome_none])
  | some c =>
    rw [State.showLine_some]
    exact replayLine_of_segment (by rw [hi, hc, Option.isSome_some]) (hp.readSegment_of_decode hs hc)

theorem State.HoldsPacket.replayLines (hs : s.shortPacket = false) (is : List LineIdx) :
    replayLines is s = .ok (s.showLines (fDecodePixelLine s.params.bpl (pixelPayload p)) is,
      (is.filterMap (fDecodePixelLine s.params.bpl (pixelPayload p))).length) := by
  induction is generalizing s with
  | nil => rfl
  | cons i is ih =>
    have hrest (line) := ih (s := s.showLine line) ((s.showLine_sameInputs line).holdsPacket hp) hs
    rw [Machine.replayLines, hp.replayLine hs i]
    cases hc : fDecodePixelLine s.params.bpl (pixelPayload p) i <;> simp [hc, hrest, State.showLines_cons, Nat.add_comm]

theorem State.HoldsPacket.execRply_short (hlen : p.length < 12) : execRply s =
    .next { s with startLine := 0, hdrOk := false, selIdx := 0, matched := false, lineBuf := none, lineOk := false,
                   emitCnt := 0, code := 1 } :=
  execRply_of_short (State.shortPacket_iff.mpr (hp.1 ▸ hlen))

theorem State.HoldsPacket.execRply_lines {l : LineNo} (hl : fDecodeHeader p = some l) :
    let lines := [0, 1, 2, 3].filterMap (fDecodePixelLine s.params.bpl (pixelPayload p))
    let last := fDecodePixelLine s.params.bpl (pixelPayload p) 3
    execRply s =
      .next { s with startLine := l, hdrOk := true, selIdx := 0, matched := false, lineBuf := last, lineOk := last.isSome,
                     out := s.out ++ lines.map (fRender s.params), emitCnt := BitVec.ofNat 3 lines.length,
                     code := if lines.length = 4 then 0 else 3 } := by
  intro lines last
  obtain ⟨hs, hr⟩ := hp.startLine_of_decode hl
  have hu := State.HoldsPacket.replayLines (s := (forgetResults s).setHeader l) hp hs [0, 1, 2, 3]
  rw [execRply_of_lines hs hr hu, finishReplay_eq, State.showLines_four]
  rfl

end

/-! ## How many lines of a packet are complete -/

/-- The complete lines are those of the indices below `L = min(4, PIXLEN div BPL)` (R135). -/
theorem fDecodePixelLine_pixelPayload_isSome_iff {bpl : Nat} {p : List Byte} (hbpl : 0 < bpl) (hlen : 12 ≤ p.length) (i : LineIdx) :
    (fDecodePixelLine bpl (pixelPayload p) i).isSome = true ↔ i.toNat < completeLines bpl p.length := by
  have hsplit : p.length = 12 + (pixelPayload p).length := by rw [pixelPayload, List.length_drop, Nat.add_sub_cancel' hlen]
  rw [fDecodePixelLine_isSome_iff, hsplit, lt_completeLines_iff hbpl]

theorem completeLines_le_four (bpl n : Nat) : completeLines bpl n ≤ 4 := Nat.min_le_left _ _

/-- There are as many complete lines as indices below `L`, so `L` of them (R135). -/
theorem length_filterMap_fDecodePixelLine {bpl : Nat} {p : List Byte} (hbpl : 0 < bpl) (hlen : 12 ≤ p.length) :
    ([0, 1, 2, 3].filterMap (fDecodePixelLine bpl (pixelPayload p))).length = completeLines bpl p.length := by
  have hcomplete (i : LineIdx) :
      (fDecodePixelLine bpl (pixelPayload p) i).isSome = decide (i.toNat < completeLines bpl p.length) := by
    rw [Bool.eq_iff_iff, decide_eq_true_eq, fDecodePixelLine_pixelPayload_isSome_iff hbpl hlen]
  have hle := completeLines_le_four bpl p.length
  rw [List.length_filterMap_eq_countP, funext hcomplete]
  generalize completeLines bpl p.length = n at hle ⊢
  interval_cases n <;> decide

/-! ## The sequences of primitives after a load -/

theorem hostIf_of_flag {flag : State → Bool} {goOn : State → Result} {s : State} (h : flag s = true) :
    hostIf flag goOn (.next s) = goOn s :=
  if_pos h

theorem hostIf_of_no_flag {flag : State → Bool} {goOn : State → Result} {s : State} (h : flag s = false) :
    hostIf flag goOn (.next s) = .next s := by
  rw [hostIf, if_neg (by simp [h])]

section
variable {s : State} {p : List Byte} (hp : s.HoldsPacket p) {goOn : State → Result}
include hp

theorem State.HoldsPacket.hdrThen_short (hlen : p.length < 12) :
    hostIf State.hdrOk goOn (exec .hdr s) = .next ((s.clearHeader.setEmitCnt 0).raise .shortPacket) := by
  have hhdr : exec .hdr s = _ := execHdr_of_short (State.shortPacket_iff.mpr (hp.1 ▸ hlen))
  rw [hhdr, hostIf_of_no_flag rfl]

theorem State.HoldsPacket.hdrThen_startLine {l : LineNo} (hl : fDecodeHeader p = some l) :
    hostIf State.hdrOk goOn (exec .hdr s) = goOn (((s.setHeader l).setEmitCnt 0).raise .ok) := by
  obtain ⟨hs, hr⟩ := hp.startLine_of_decode hl
  have hhdr : exec .hdr s = _ := execHdr_of_startLine hs hr
  rw [hhdr, hostIf_of_flag rfl]

end

theorem selThen_no_match {s : State} {t : LineNo} {goOn : State → Result} (hh : s.hdrOk = true)
    (ht : fSelectLine s.startLine.toNat t.toNat = none) :
    hostIf State.matched goOn (exec (.sel t) s) = .next ((s.clearSelection.setEmitCnt 0).raise .noMatch) := by
  have hsel : exec (.sel t) s = _ := execSel_of_no_match hh (fSelectLine_eq_none_iff.mp ht)
  rw [hsel, hostIf_of_no_flag rfl]

theorem selThen_match {s : State} {t : LineNo} {i : LineIdx} {goOn : State → Result} (hh : s.hdrOk = true)
    (ht : fSelectLine s.startLine.toNat t.toNat = some i) :
    hostIf State.matched goOn (exec (.sel t) s) = goOn (((s.setSelection i).setEmitCnt 0).raise .ok) := by
  obtain ⟨hg, rfl⟩ := fSelectLine_eq_some_iff.mp ht
  have hsel : exec (.sel t) s = _ := execSel_of_match hh hg
  rw [hsel, hostIf_of_flag rfl]

/-- `PXL i`; if `LINE_OK` then `RND`: one line of either composite, and the outcome of the last of the two commands (R157). -/
theorem State.HoldsPacket.pxlThenRnd {s : State} {p : List Byte} (hp : s.HoldsPacket p) (hs : s.shortPacket = false) {i : LineIdx}
    {line : Option (List ColorIndex)} (hc : fDecodePixelLine s.params.bpl (pixelPayload p) i = line) :
    hostIf State.lineOk (exec .rnd) (exec (.pxl i) s) =
      .next (((s.showLine line).setEmitCnt line.toList.length).raise (if line.isSome then .ok else .insufficientData)) := by
  have hi := hp.hasSegment_eq_isSome i
  cases line with
  | none =>
    have hpxl : exec (.pxl i) s = _ := execPxl_of_no_segment hs (by rw [hi, hc, Option.isSome_none])
    rw [hpxl, hostIf_of_no_flag rfl, State.showLine_none]
    rfl
  | some c =>
    have hpxl : exec (.pxl i) s = _ := execPxl_of_segment hs (by rw [hi, hc, Option.isSome_some]) (hp.readSegment_of_decode hs hc)
    rw [hpxl, hostIf_of_flag rfl]
    exact execRnd_of_line rfl rfl

/-- The lines of RPLY's sequence, but for the outcome of its last command (R157). -/
theorem State.HoldsPacket.linePrimitives {s : State} {p : List Byte} (hp : s.HoldsPacket p) (hs : s.shortPacket = false)
    (is : List LineIdx) :
    ∃ e c, linePrimitives is s =
      .next { s.showLines (fDecodePixelLine s.params.bpl (pixelPayload p)) is with emitCnt := e, code := c } := by
  induction is generalizing s with
  | nil => exact ⟨s.emitCnt, s.code, rfl⟩
  | cons i is ih =>
    rw [Machine.linePrimitives, hp.pxlThenRnd hs rfl]
    obtain ⟨e, c, hrest⟩ := ih (s := State.raise _ (State.setEmitCnt _ (s.showLine _))) hp hs
    rw [State.showLines_outcome] at hrest
    exact ⟨e, c, hrest⟩

section
variable {s : State} {p : List Byte} (hp : p.length ≤ 2048)
include hp

/-- LIVE's sequence leaves LIVE's state: each test that fails ends both with the same code (R157). -/
theorem livePrimitives_loaded (t : LineNo) : livePrimitives t (loaded p s) = liveBody t (loaded p s) := by
  have hold := loaded_holdsPacket s p hp
  rw [livePrimitives]
  cases hl : fDecodeHeader p with
  | none =>
    have hlen := fDecodeHeader_eq_none_iff.mp hl
    exact (hold.hdrThen_short hlen).trans (hold.liveBody_short hlen).symm
  | some l =>
    have hs := (hold.startLine_of_decode hl).1
    rw [hold.hdrThen_startLine hl]
    cases ht : fSelectLine l.toNat t.toNat with
    | none => exact (selThen_no_match rfl ht).trans (hold.liveBody_no_match hl ht).symm
    | some i =>
      refine (selThen_match rfl ht).trans ?_
      have hline {line : Option (List ColorIndex)} := State.HoldsPacket.pxlThenRnd (i := i) (line := line)
        (s := ((((loaded p s).setHeader l).setEmitCnt 0).raise .ok).setSelection i |>.setEmitCnt 0 |>.raise .ok) hold hs
      cases hc : fDecodePixelLine s.params.bpl (pixelPayload p) i with
      | none =>
        rw [hold.liveBody_incomplete hl ht hc]
        refine (hline hc).trans ?_
        rw [State.showLine_none]
        rfl
      | some c => exact (hline hc).trans (hold.liveBody_line hl ht hc).symm

/-- RPLY's sequence leaves RPLY's state, but for the outcome of its last command (R157). -/
theorem replayPrimitives_loaded :
    ∃ u v, execRply (loaded p s) = .next u ∧ replayPrimitives (loaded p s) = .next v ∧
      u = { v with emitCnt := u.emitCnt, code := u.code } := by
  have hold := loaded_holdsPacket s p hp
  rw [replayPrimitives]
  cases hl : fDecodeHeader p with
  | none =>
    have hlen := fDecodeHeader_eq_none_iff.mp hl
    exact ⟨_, _, hold.execRply_short hlen, hold.hdrThen_short hlen, rfl⟩
  | some l =>
    have hs := (hold.startLine_of_decode hl).1
    obtain ⟨e, c, hlines⟩ := State.HoldsPacket.linePrimitives (s := (loaded p s).setHeader l |>.setEmitCnt 0 |>.raise .ok) hold hs
      [0, 1, 2, 3]
    rw [State.showLines_four] at hlines
    exact ⟨_, _, hold.execRply_lines hl, (hold.hdrThen_startLine hl).trans hlines, rfl⟩

end

end Sys2Proof.Machine

namespace Sys2Proof

open Machine

/-- Settles O26: the four outcomes of LIVE on a held packet, which the function level tells apart. -/
theorem liveRendersTheWantedLine : Obligations.LiveRendersTheWantedLine :=
  ⟨encode_live_toNat, by decide, fun _ _ _ hp => ⟨hp.liveBody_short, fun _ => hp.liveBody_no_match, fun _ _ => hp.liveBody_incomplete,
    fun _ _ _ => hp.liveBody_line⟩⟩

/-- Settles O28: RPLY on a short packet, and on one with a header. -/
theorem rplyRendersEveryCompleteLine : Obligations.RplyRendersEveryCompleteLine :=
  ⟨by decide, fun _ _ hp => ⟨hp.execRply_short, fun _ => hp.execRply_lines⟩⟩

/-- Settles O29: what RPLY emits is the complete lines, and line 3 is one of them exactly when all four are. -/
theorem rplyCountsTheCompleteLines : Obligations.RplyCountsTheCompleteLines := by
  intro s t p hp hlen hbpl h
  obtain ⟨l, hl⟩ := Option.ne_none_iff_exists'.mp (mt fDecodeHeader_eq_none_iff.mp (Nat.not_lt.mpr hlen))
  cases (hp.execRply_lines hl).symm.trans h
  have hle := completeLines_le_four s.params.bpl p.length
  have hemit : (BitVec.ofNat 3 (completeLines s.params.bpl p.length)).toNat = completeLines s.params.bpl p.length :=
    Nat.mod_eq_of_lt (by omega)
  simp only [length_filterMap_fDecodePixelLine hbpl hlen, hemit, List.length_append, List.length_map,
    fDecodePixelLine_pixelPayload_isSome_iff hbpl hlen]
  refine ⟨rfl, trivial, ?_⟩
  change 3 < completeLines s.params.bpl p.length ↔ _
  omega

/-- Settles O52: after a load the registers that LIVE and RPLY forget are clear already, so the sequences leave the same. -/
theorem compositesAgreeWithThePrimitives : Obligations.CompositesAgreeWithThePrimitives := by
  refine fun s p hp => ⟨fun t => ?_, replayPrimitives_loaded hp⟩
  obtain ⟨u, hu⟩ := liveBody_completes (loaded_holdsPacket s p hp) t
  exact ⟨u, hu, (livePrimitives_loaded hp t).trans hu⟩

end Sys2Proof
end

section
/-!
Proofs of the statements about the conditions (spec/60_exceptions.md), first part: what the block does with nothing to serve (R184) and
with an illegal command (R176), that every permitted transaction completes (R185, R205), and that what comes out is always a line of
the packet now loaded (R186).
-/

namespace Sys2Proof.Machine

/-! ## The step with nothing to serve, and with an illegal command -/

theorem step_of_no_transaction {s : State} (h : s.inbox = []) : step s = .next s := by
  unfold step
  rw [h]
  rfl

theorem runCommand_of_decode_error {w : CmdWord} {e : DecodeError} (h : decode w = .error e) (s : State) :
    runCommand w s = illegalCommand s := by
  unfold runCommand
  rw [h]

/-! ## Every transaction the host may make completes -/

section
variable {s : State} (hs : s.Inv)
include hs

/-- An element of `LINE_BUF` that exists is read: behind `LINE_OK` there is a whole line (R32 (f)). -/
theorem State.Inv.readElement_completes {k : Nat} (hk : k < 2 * s.params.bpl) : ∃ t, readElement k s = .next t := by
  cases hok : s.lineOk with
  | false => exact ⟨_, readElement_of_not_lineOk hk hok⟩
  | true =>
    obtain ⟨-, l, -, -, hl, hlen, -⟩ := hs.lineCurrent hok
    exact ⟨_, readElement_of_lineOk hk hok hl (List.getElem?_eq_getElem (hlen ▸ hk))⟩

theorem State.Inv.readRegister_completes {number k : Nat} (hx : (Transaction.readReg number k).permitted s.params = true) :
    ∃ t, readRegister number k s = .next t := by
  simp only [Transaction.permitted, Bool.or_eq_true, Bool.and_eq_true, decide_eq_true_eq, beq_iff_eq] at hx
  rcases hx with hn | ⟨rfl, hk⟩
  · interval_cases number
    all_goals exact ⟨_, rfl⟩
  · exact hs.readElement_completes hk

omit hs in
theorem drainRecord_completes (s : State) : ∃ t, drainRecord s = .next t := by
  cases ho : s.out with
  | nil => exact ⟨_, drainRecord_of_out_nil ho⟩
  | cons r rs => exact ⟨_, drainRecord_of_out_cons ho⟩

theorem State.Inv.serve_completes {x : Transaction} (hx : x.permitted s.params = true) : ∃ t, serve x s = .next t := by
  cases x with
  | load p => exact ⟨_, loadPacket_of_fits (of_decide_eq_true hx) s⟩
  | command w =>
    obtain ⟨-, -, p, hp⟩ := hs.bufferOk
    exact runCommand_completes hp hs.lineCleared w
  | readReg number k => exact hs.readRegister_completes hx
  | drain => exact drainRecord_completes s
  | reset => exact ⟨_, rfl⟩

end

/-- No transaction adds to what the host has still to ask, or takes from it. -/
theorem serve_inbox {x : Transaction} {s t : State} (h : serve x s = .next t) : t.inbox = s.inbox := by
  cases x with
  | load p =>
    obtain ⟨-, rfl⟩ := loadPacket_eq_next.mp h
    exact loaded_inbox s p
  | command w => exact (runCommand_sameInputs h).inbox
  | readReg number k =>
    obtain ⟨a, c, rfl⟩ := readRegister_frame h
    rfl
  | drain =>
    obtain ⟨a, o, rfl⟩ := drainRecord_frame h
    rfl
  | reset =>
    cases h
    rfl

/-! ## What a held packet's header and segments decode to, read from the operation level -/

section
variable {s : State} {p : List Byte} (hp : s.HoldsPacket p)
include hp

theorem State.HoldsPacket.length_lt (hs : s.shortPacket = true) : p.length < 12 := hp.1 ▸ State.shortPacket_iff.mp hs

theorem State.HoldsPacket.le_length (hs : s.shortPacket = false) : 12 ≤ p.length := hp.1 ▸ State.not_shortPacket_iff.mp hs

theorem State.HoldsPacket.decode_of_readStartLine {l : LineNo} (hs : s.shortPacket = false) (hl : s.readStartLine = .ok l) :
    fDecodeHeader p = some l := by
  obtain ⟨l', hr, hd⟩ := hp.readStartLine (hp.le_length hs)
  cases hl.symm.trans hr
  exact hd

theorem State.HoldsPacket.decode_of_readSegment {k : LineIdx} {c : List ColorIndex} (hs : s.shortPacket = false)
    (hk : s.hasSegment k.toNat = true) (hc : s.readSegment k.toNat = .ok c) :
    fDecodePixelLine s.params.bpl (pixelPayload p) k = some c := by
  rw [hp.hasSegment_eq_isSome] at hk
  obtain ⟨c', hd⟩ := Option.isSome_iff_exists.mp hk
  cases hc.symm.trans (hp.readSegment_of_decode hs hd)
  exact hd

theorem State.HoldsPacket.decode_of_segment {k : LineIdx} (hk : s.hasSegment k.toNat = true) :
    (fDecodePixelLine s.params.bpl (pixelPayload p) k).isSome = true := hp.hasSegment_eq_isSome k ▸ hk

theorem State.HoldsPacket.decode_of_no_segment {k : LineIdx} (hk : s.hasSegment k.toNat = false) :
    fDecodePixelLine s.params.bpl (pixelPayload p) k = none := by
  rwa [hp.hasSegment_eq_isSome, Option.isSome_eq_false_iff, Option.isNone_iff_eq_none] at hk

end

/-- Two lists of `n` pairs are equal when they agree pair by pair. -/
theorem eq_of_pairs {α : Type} {n : Nat} {l l' : List α} (hl : l.length = 2 * n) (hl' : l'.length = 2 * n)
    (h : ∀ j, j < n → l[2 * j]? = l'[2 * j]? ∧ l[2 * j + 1]? = l'[2 * j + 1]?) : l = l' := by
  refine List.ext_getElem? fun k => ?_
  by_cases hk : k < 2 * n
  · obtain ⟨heven, hodd⟩ := h (k / 2) (by omega)
    rcases Nat.mod_two_eq_zero_or_one k with hmod | hmod
    · rwa [show 2 * (k / 2) = k by omega] at heven
    · rwa [show 2 * (k / 2) + 1 = k by omega] at hodd
  · rw [List.getElem?_eq_none (by omega), List.getElem?_eq_none (by omega)]

/-- What stands in `LINE_BUF` behind `LINE_OK` is the decode of a complete segment of the packet now loaded (R32 (f)). -/
theorem State.Inv.line_decodes {s : State} {p : List Byte} {l : List ColorIndex} (hs : s.Inv) (hp : s.HoldsPacket p)
    (hok : s.lineOk = true) (hl : s.lineBuf = some l) :
    12 ≤ p.length ∧ ∃ k, fDecodePixelLine s.params.bpl (pixelPayload p) k = some l := by
  obtain ⟨i, l', hi, hend, hl', hlen, hbytes⟩ := hs.lineCurrent hok
  cases hl.symm.trans hl'
  obtain ⟨k, rfl⟩ : ∃ k : LineIdx, k.toNat = i := ⟨.ofFin ⟨i, hi⟩, rfl⟩
  rw [hp.1, Nat.succ_mul] at hend
  obtain ⟨c, hr, hc, hclen⟩ := hp.readSegment hend
  have hlc : l = c := eq_of_pairs hlen hclen fun j hj => by
    obtain ⟨b, hb, hleft, hright⟩ := hbytes j hj
    obtain ⟨b', hb', hleft', hright'⟩ := (State.readSegment_elements hr).2 j hj
    cases hb.symm.trans hb'
    exact ⟨hleft.trans hleft'.symm, hright.trans hright'.symm⟩
  exact ⟨by omega, k, hlc ▸ hc⟩

/-! ## Every record is a line of the packet -/

/-- `t` has the records of `s` and at the end perhaps more, each of them the rendering of a line that `p` holds whole (R186). -/
def State.AppendsLinesOf (s t : State) (p : List Byte) : Prop :=
  ∃ rs, t.out = s.out ++ rs ∧ ∀ r ∈ rs, 12 ≤ p.length ∧
    ∃ k c, fDecodePixelLine s.params.bpl (pixelPayload p) k = some c ∧ r = fRender s.params c

section
variable {s t : State} {p : List Byte}

theorem State.AppendsLinesOf.of_out_eq (ho : t.out = s.out) : s.AppendsLinesOf t p :=
  ⟨[], by simp [ho], List.forall_mem_nil _⟩

theorem State.AppendsLinesOf.of_out_snoc {k : LineIdx} {c : List ColorIndex} (hlen : 12 ≤ p.length)
    (hc : fDecodePixelLine s.params.bpl (pixelPayload p) k = some c) (ho : t.out = s.out ++ [fRender s.params c]) :
    s.AppendsLinesOf t p :=
  ⟨[fRender s.params c], ho, List.forall_mem_singleton.mpr ⟨hlen, k, c, hc, rfl⟩⟩

theorem execRnd_appendsLinesOf (hs : s.Inv) (hp : s.HoldsPacket p) (h : execRnd s = .next t) : s.AppendsLinesOf t p := by
  rcases execRnd_cases h with ⟨-, rfl⟩ | ⟨hok, l, hl, rfl⟩
  · exact .of_out_eq rfl
  · obtain ⟨hlen, k, hk⟩ := hs.line_decodes hp hok hl
    exact .of_out_snoc hlen hk rfl

theorem liveBody_appendsLinesOf {g : LineNo} (hp : s.HoldsPacket p) (h : liveBody g s = .next t) : s.AppendsLinesOf t p := by
  rcases liveBody_cases h with ⟨-, rfl⟩ | ⟨hs, l, -, ⟨-, rfl⟩ | ⟨-, -, rfl⟩ | ⟨-, hi, c, hc, rfl⟩⟩
  · exact .of_out_eq rfl
  · exact .of_out_eq rfl
  · exact .of_out_eq rfl
  · exact .of_out_snoc (hp.le_length hs) (hp.decode_of_readSegment hs hi hc) rfl

theorem execRply_appendsLinesOf (hp : s.HoldsPacket p) (h : execRply s = .next t) : s.AppendsLinesOf t p := by
  cases hl : fDecodeHeader p with
  | none =>
    cases (hp.execRply_short (fDecodeHeader_eq_none_iff.mp hl)).symm.trans h
    exact .of_out_eq rfl
  | some l =>
    cases (hp.execRply_lines hl).symm.trans h
    refine ⟨_, rfl, List.forall_mem_map.mpr fun c hc => ?_⟩
    obtain ⟨k, -, hk⟩ := List.mem_filterMap.mp hc
    exact ⟨hp.le_length (hp.startLine_of_decode hl).1, k, c, hk, rfl⟩

theorem exec_appendsLinesOf {i : Instr} (hs : s.Inv) (hp : s.HoldsPacket p) (h : exec i s = .next t) : s.AppendsLinesOf t p := by
  cases i with
  | hdr => exact .of_out_eq (execHdr_appends h).out_of_zero
  | sel g => exact .of_out_eq (execSel_appends h).out_of_zero
  | pxl k => exact .of_out_eq (execPxl_appends h).out_of_zero
  | rnd => exact execRnd_appendsLinesOf hs hp h
  | live g => exact liveBody_appendsLinesOf hp h
  | rply => exact execRply_appendsLinesOf hp h
  | mon => exact liveBody_appendsLinesOf hp h

end

end Sys2Proof.Machine

namespace Sys2Proof

open Machine

/-- Settles O55: every operation completes and keeps the invariant, of which the bound on `CODE` is a part; every permitted transaction
completes, and serving it leaves the host's later transactions and the parameters they are measured by as they were. -/
theorem theBlockNeverStops : Obligations.TheBlockNeverStops := by
  refine ⟨fun s i hs => ?_, fun s hs hperm => ?_⟩
  · obtain ⟨t, ht⟩ := hs.exec_completes i
    exact ⟨t, ht, (exec_keeps_inv hs ht).outcomeInRange.2⟩
  · cases hi : s.inbox with
    | nil => exact ⟨s, step_of_no_transaction hi, hperm⟩
    | cons x rest =>
      have htaken : (s.take rest).Inv := hs.withHostFields rest .nothing s.freeCount
      obtain ⟨t, ht⟩ := htaken.serve_completes (hperm x (hi ▸ List.mem_cons_self))
      refine ⟨t, (step_of_inbox hi).trans ht, fun y hy => ?_⟩
      rw [serve_inbox ht, State.take_inbox] at hy
      rw [serve_params ht]
      exact hperm y (hi ▸ List.mem_cons_of_mem x hy)

/-- Settles O56: LIVE and RPLY render what they have just decoded, and RND the line buffer, which the invariant ties to the packet. -/
theorem noWrongOutput : Obligations.NoWrongOutput := by
  intro s t i hs h
  obtain ⟨-, -, p, hp⟩ := hs.bufferOk
  obtain ⟨rs, ho, hrs⟩ := exec_appendsLinesOf hs hp h
  refine ⟨rs, ho, fun r hr => ?_⟩
  obtain ⟨hlen, k, c, hc, hrender⟩ := hrs r hr
  exact ⟨p, k, c, hp, hlen, hc, hrender⟩

/-- Settles O12: command decode comes first, and an illegal word has no other effect. -/
theorem illegalCommandOnlySetsCode : Obligations.IllegalCommandOnlySetsCode :=
  fun _ _ _ _ h hd => (step_of_inbox h).trans (runCommand_of_decode_error hd _)

/-- Settles O13: with no transaction the step is idle. -/
theorem idleKeepsAllState : Obligations.IdleKeepsAllState := fun _ => step_of_no_transaction

end Sys2Proof
end

section
/-!
Proofs of the statements about the conditions (spec/60_exceptions.md), second part: which condition an operation raises and why (R170,
R172, R175, R179), and that none reads the last outcome (R171).
-/

namespace Sys2Proof.Machine

/-! ## Which conditions an operation raises on any state -/

/-- The condition that a number in `CODE` stands for (R170). -/
def Condition.ofCode (n : BitVec 3) : Condition :=
  [.ok, .shortPacket, .noMatch, .insufficientData, .notReady].getD n.toNat .illegalCmd

theorem Condition.ofCode_code (c : Condition) : Condition.ofCode c.code = c := by
  cases c <;> rfl

theorem Condition.code_injective : Function.Injective Condition.code :=
  Function.LeftInverse.injective Condition.ofCode_code

/-- What the rules ask of a state and an operation that raises the condition: `SHORT_PACKET` (R172), `NOT_READY` (R175), and
`ILLEGAL_CMD`, which no operation raises (R176). The other three ask about the packet's contents. -/
def Condition.RaisedBy (i : Instr) (s : State) : Condition → Prop
  | .shortPacket => s.pktLen.toNat < 12 ∧ i ≠ .rnd ∧ ∀ g, i ≠ .sel g
  | .notReady => (∃ g, i = .sel g ∧ s.hdrOk = false) ∨ (i = .rnd ∧ s.lineOk = false)
  | .illegalCmd => False
  | .ok | .noMatch | .insufficientData => True

theorem liveBody_raises {i : Instr} {g : LineNo} {s t : State} (h : liveBody g s = .next t) (hrnd : i ≠ .rnd)
    (hsel : ∀ g, i ≠ .sel g) : ∃ c : Condition, t.code = c.code ∧ c.RaisedBy i s := by
  rcases liveBody_cases h with ⟨hs, rfl⟩ | ⟨-, l, -, ⟨-, rfl⟩ | ⟨-, -, rfl⟩ | ⟨-, -, c, -, rfl⟩⟩
  · exact ⟨.shortPacket, rfl, State.shortPacket_iff.mp hs, hrnd, hsel⟩
  · exact ⟨.noMatch, rfl, trivial⟩
  · exact ⟨.insufficientData, rfl, trivial⟩
  · exact ⟨.ok, rfl, trivial⟩

/-- Every operation that completes raises one condition, and what the condition asks for holds (R171). -/
theorem exec_raises {i : Instr} {s t : State} (h : exec i s = .next t) : ∃ c : Condition, t.code = c.code ∧ c.RaisedBy i s := by
  cases i with
  | hdr =>
    rcases execHdr_cases h with ⟨hs, rfl⟩ | ⟨-, l, -, rfl⟩
    · exact ⟨.shortPacket, rfl, State.shortPacket_iff.mp hs, nofun, nofun⟩
    · exact ⟨.ok, rfl, trivial⟩
  | sel g =>
    rcases execSel_cases h with ⟨hh, rfl⟩ | ⟨-, -, rfl⟩ | ⟨-, -, rfl⟩
    · exact ⟨.notReady, rfl, .inl ⟨g, rfl, hh⟩⟩
    · exact ⟨.ok, rfl, trivial⟩
    · exact ⟨.noMatch, rfl, trivial⟩
  | pxl k =>
    rcases execPxl_cases h with ⟨hs, rfl⟩ | ⟨-, -, l, -, rfl⟩ | ⟨-, -, rfl⟩
    · exact ⟨.shortPacket, rfl, State.shortPacket_iff.mp hs, nofun, nofun⟩
    · exact ⟨.ok, rfl, trivial⟩
    · exact ⟨.insufficientData, rfl, trivial⟩
  | rnd =>
    rcases execRnd_cases h with ⟨hok, rfl⟩ | ⟨-, l, -, rfl⟩
    · exact ⟨.notReady, rfl, .inr ⟨rfl, hok⟩⟩
    · exact ⟨.ok, rfl, trivial⟩
  | live g => exact liveBody_raises h nofun nofun
  | rply =>
    rcases execRply_cases h with ⟨hs, rfl⟩ | ⟨-, l, u, n, -, -, rfl⟩
    · exact ⟨.shortPacket, rfl, State.shortPacket_iff.mp hs, nofun, nofun⟩
    · exact ⟨if n = 4 then .ok else .insufficientData, rfl, by split <;> trivial⟩
  | mon => exact liveBody_raises h nofun nofun

/-! ## The code of each operation and its cause, on a held packet -/

/-- Four lines came out exactly when each of the four indices gave one (R156). -/
theorem length_filterMap_eq_four_iff {α : Type} (f : LineIdx → Option α) :
    ([0, 1, 2, 3].filterMap f).length = 4 ↔ ∀ k, (f k).isSome = true := by
  have hall : ∀ k : LineIdx, k ∈ [0, 1, 2, 3] := by decide
  rw [List.length_filterMap_eq_countP, show 4 = ([0, 1, 2, 3] : List LineIdx).length from rfl, List.countP_eq_length]
  exact ⟨fun h k => h k (hall k), fun h k _ => h k⟩

section
variable {s t : State} {p : List Byte} (hp : s.HoldsPacket p)
include hp

theorem liveBody_cause {g : LineNo} (h : liveBody g s = .next t) : liveCause s.params.bpl p g t.code := by
  rcases liveBody_cases h with ⟨hs, rfl⟩ | ⟨hs, l, hl, hcase⟩
  · exact .inl ⟨rfl, hp.length_lt hs⟩
  · refine .inr ⟨l, hp.decode_of_readStartLine hs hl, ?_⟩
    rcases hcase with ⟨hg, rfl⟩ | ⟨hg, hi, rfl⟩ | ⟨hg, hi, c, -, rfl⟩
    · exact .inl ⟨rfl, fSelectLine_eq_none_iff.mpr hg⟩
    · exact .inr ⟨_, fSelectLine_eq_some_iff.mpr ⟨hg, rfl⟩, .inl ⟨rfl, hp.decode_of_no_segment hi⟩⟩
    · exact .inr ⟨_, fSelectLine_eq_some_iff.mpr ⟨hg, rfl⟩, .inr ⟨rfl, hp.decode_of_segment hi⟩⟩

theorem execRply_cause (h : execRply s = .next t) : codeCause s p .rply t.code := by
  cases hl : fDecodeHeader p with
  | none =>
    have hlen := fDecodeHeader_eq_none_iff.mp hl
    cases (hp.execRply_short hlen).symm.trans h
    exact .inl ⟨rfl, hlen⟩
  | some l =>
    have hlen := hp.le_length (hp.startLine_of_decode hl).1
    cases (hp.execRply_lines hl).symm.trans h
    have hfour := length_filterMap_eq_four_iff (fDecodePixelLine s.params.bpl (pixelPayload p))
    by_cases hall : ∀ k, (fDecodePixelLine s.params.bpl (pixelPayload p) k).isSome = true
    · exact .inr (.inr ⟨if_pos (hfour.mpr hall), hlen, hall⟩)
    · obtain ⟨k, hk⟩ := not_forall.mp hall
      exact .inr (.inl ⟨if_neg (mt hfour.mp hall), hlen, k, Option.not_isSome_iff_eq_none.mp hk⟩)

theorem exec_cause {i : Instr} (h : exec i s = .next t) : codeCause s p i t.code := by
  cases i with
  | hdr =>
    rcases execHdr_cases h with ⟨hs, rfl⟩ | ⟨hs, l, -, rfl⟩
    · exact .inl ⟨rfl, hp.length_lt hs⟩
    · exact .inr ⟨rfl, hp.le_length hs⟩
  | sel g =>
    rcases execSel_cases h with ⟨hh, rfl⟩ | ⟨hh, hg, rfl⟩ | ⟨hh, hg, rfl⟩
    · exact .inl ⟨rfl, hh⟩
    · exact .inr (.inr ⟨rfl, hh, Option.isSome_of_eq_some (fSelectLine_eq_some_iff.mpr ⟨hg, rfl⟩)⟩)
    · exact .inr (.inl ⟨rfl, hh, fSelectLine_eq_none_iff.mpr hg⟩)
  | pxl k =>
    rcases execPxl_cases h with ⟨hs, rfl⟩ | ⟨hs, hk, l, -, rfl⟩ | ⟨hs, hk, rfl⟩
    · exact .inl ⟨rfl, hp.length_lt hs⟩
    · exact .inr (.inr ⟨rfl, hp.le_length hs, hp.decode_of_segment hk⟩)
    · exact .inr (.inl ⟨rfl, hp.le_length hs, hp.decode_of_no_segment hk⟩)
  | rnd =>
    rcases execRnd_cases h with ⟨hok, rfl⟩ | ⟨hok, l, -, rfl⟩
    · exact .inl ⟨rfl, hok⟩
    · exact .inr ⟨rfl, hok⟩
  | live g => exact liveBody_cause hp h
  | rply => exact execRply_cause hp h
  | mon => exact liveBody_cause hp h

end

/-- A command leaves the code of some condition, and it is `ILLEGAL_CMD` exactly when the word is illegal (R176, R179). -/
theorem runCommand_raises {w : CmdWord} {s t : State} (h : runCommand w s = .next t) :
    ∃ c : Condition, t.code = c.code ∧ (c = .illegalCmd ↔ ∃ e, decode w = .error e) := by
  cases hd : decode w with
  | error e =>
    rw [runCommand_of_decode_error hd] at h
    cases h
    exact ⟨.illegalCmd, rfl, by simp⟩
  | ok i =>
    obtain ⟨c, hc, hraised⟩ := exec_raises ((runCommand_of_decode hd s).symm.trans h)
    refine ⟨c, hc, ?_, by simp⟩
    rintro rfl
    exact hraised.elim

/-! ## No operation reads the last outcome -/

/-- Going on with a value made from the one read is going on with the one read. -/
theorem andThen_map {α β : Type} (f : α → β) (r : Except Fault α) (k : β → Result) :
    andThen (r.map f) k = andThen r fun x => k (f x) := by
  cases r with
  | error e => rfl
  | ok x => rfl

/-- `s` with another value in `CODE`. -/
def State.withCode (c : BitVec 3) (s : State) : State := { s with code := c }

section
variable (c : BitVec 3) (s : State)

@[simp] theorem State.withCode_startLine : (s.withCode c).startLine = s.startLine := rfl
@[simp] theorem State.withCode_shortPacket : (s.withCode c).shortPacket = s.shortPacket := rfl
@[simp] theorem State.withCode_hasSegment (k : Nat) : (s.withCode c).hasSegment k = s.hasSegment k := rfl
@[simp] theorem State.withCode_readStartLine : (s.withCode c).readStartLine = s.readStartLine :=
  State.readStartLine_congr (s := s) (t := s.withCode c) rfl rfl
@[simp] theorem State.withCode_readSegment (k : Nat) : (s.withCode c).readSegment k = s.readSegment k :=
  State.readSegment_congr (s := s) (t := s.withCode c) rfl rfl rfl k

@[simp] theorem State.withCode_setHeader (l : LineNo) : (s.withCode c).setHeader l = (s.setHeader l).withCode c := rfl
@[simp] theorem State.withCode_setSelection (i : LineIdx) : (s.withCode c).setSelection i = (s.setSelection i).withCode c := rfl

theorem State.withCode_renderLine : (s.withCode c).renderLine = s.renderLine.map (State.withCode c) := by
  rw [State.renderLine, State.renderLine, show (s.withCode c).readLine = s.readLine from rfl]
  cases s.readLine with
  | error f => rfl
  | ok l => rfl

theorem unpackAndRender_withCode (i : Nat) : unpackAndRender i (s.withCode c) = (unpackAndRender i s).map (State.withCode c) := by
  rw [unpackAndRender, unpackAndRender, State.withCode_readSegment]
  cases s.readSegment i with
  | error f => rfl
  | ok l => exact State.withCode_renderLine c (s.setLine l)

theorem replayLine_withCode (i : LineIdx) :
    replayLine i (s.withCode c) = (replayLine i s).map (Prod.map (State.withCode c) id) := by
  rw [replayLine, replayLine, State.withCode_hasSegment, unpackAndRender_withCode]
  split
  · cases unpackAndRender i.toNat s with
    | error f => rfl
    | ok t => rfl
  · rfl

theorem replayLines_withCode (is : List LineIdx) :
    replayLines is (s.withCode c) = (replayLines is s).map (Prod.map (State.withCode c) id) := by
  induction is generalizing s with
  | nil => rfl
  | cons i is ih =>
    rw [replayLines, replayLines, replayLine_withCode]
    cases replayLine i s with
    | error f => rfl
    | ok r =>
      simp only [Except.map, Prod.map, ih]
      cases replayLines is r.1 with
      | error f => rfl
      | ok r' => rfl

end

/-- Every outcome of a selected line writes `CODE`. -/
theorem liveSelected_withCode (c : BitVec 3) (g : LineNo) (s : State) : liveSelected g (s.withCode c) = liveSelected g s := by
  simp only [liveSelected, State.withCode_startLine, State.withCode_setSelection, State.withCode_hasSegment, unpackAndRender_withCode,
    andThen_map]
  rfl

/-- `s` with other values in `CODE` and `EMIT_CNT`. -/
def State.withOutcome (c e : BitVec 3) (s : State) : State := { s with code := c, emitCnt := e }

section
variable (c e : BitVec 3) (s : State)

theorem execHdr_withOutcome : execHdr (s.withOutcome c e) = execHdr s := by
  rw [execHdr, execHdr, State.readStartLine_congr (s := s) (t := s.withOutcome c e) rfl rfl]
  rfl

theorem execPxl_withOutcome (k : LineIdx) : execPxl k (s.withOutcome c e) = execPxl k s := by
  rw [execPxl, execPxl, State.readSegment_congr (s := s) (t := s.withOutcome c e) rfl rfl rfl]
  rfl

theorem execRnd_withOutcome : execRnd (s.withOutcome c e) = execRnd s := by
  cases hok : s.lineOk with
  | false => exact (execRnd_of_no_line (s := s.withOutcome c e) hok).trans (execRnd_of_no_line hok).symm
  | true =>
    cases hl : s.lineBuf with
    | none => exact (execRnd_without_line (s := s.withOutcome c e) hok hl).trans (execRnd_without_line hok hl).symm
    | some l => exact (execRnd_of_line (s := s.withOutcome c e) hok hl).trans (execRnd_of_line hok hl).symm

/-- A composite forgets `EMIT_CNT` first (R155, R156). -/
theorem forgetResults_withOutcome : forgetResults (s.withOutcome c e) = (forgetResults s).withCode c := rfl

theorem liveBody_withOutcome (g : LineNo) : liveBody g (s.withOutcome c e) = liveBody g s := by
  simp only [liveBody, forgetResults_withOutcome, State.withCode_shortPacket, State.withCode_readStartLine, State.withCode_setHeader,
    liveSelected_withCode]
  rfl

theorem execRply_withOutcome : execRply (s.withOutcome c e) = execRply s := by
  simp only [execRply, forgetResults_withOutcome, State.withCode_shortPacket, State.withCode_readStartLine, State.withCode_setHeader,
    replayLines_withCode, andThen_map]
  rfl

theorem exec_withOutcome (i : Instr) : exec i (s.withOutcome c e) = exec i s := by
  cases i with
  | hdr => exact execHdr_withOutcome c e s
  | sel g => rfl
  | pxl k => exact execPxl_withOutcome c e s k
  | rnd => exact execRnd_withOutcome c e s
  | live g => exact liveBody_withOutcome c e s g
  | rply => exact execRply_withOutcome c e s
  | mon => exact liveBody_withOutcome c e s _

end

end Sys2Proof.Machine

namespace Sys2Proof

open Machine

/-- Settles O30: each operation's answer on a short packet; and what `SHORT_PACKET` asks for whenever it is raised. -/
theorem shortPacketOutcome : Obligations.ShortPacketOutcome := by
  refine ⟨fun s hlen => ?_, fun s t i h hcode => ?_⟩
  · have hs : s.shortPacket = true := State.shortPacket_iff.mpr hlen
    refine ⟨execHdr_of_short hs, fun i => execPxl_of_short hs, fun i hi => ?_⟩
    rcases hi with ⟨g, rfl⟩ | rfl | rfl
    · exact liveBody_of_short hs
    · exact liveBody_of_short hs
    · exact execRply_of_short hs
  · obtain ⟨c, hc, hraised⟩ := exec_raises h
    obtain rfl : c = .shortPacket := Condition.code_injective (hc.symm.trans hcode)
    exact hraised

/-- Settles O31: the answers of SEL and RND without a value; and what `NOT_READY` asks for whenever it is raised. -/
theorem notReadyExactlyWhenNoValue : Obligations.NotReadyExactlyWhenNoValue := by
  refine ⟨fun s g hh => execSel_of_no_header hh, fun s hok => execRnd_of_no_line hok, fun s t i h hcode => ?_⟩
  obtain ⟨c, hc, hraised⟩ := exec_raises h
  obtain rfl : c = .notReady := Condition.code_injective (hc.symm.trans hcode)
  exact hraised

/-- Settles O32: the cause of each operation's code; and a command's code is that of a condition, `ILLEGAL_CMD` for an illegal word. -/
theorem codesAndTheirCauses : Obligations.CodesAndTheirCauses := by
  refine ⟨fun s t p i hp h => exec_cause hp h, fun s t w rest hi h => ?_⟩
  obtain ⟨c, hc, hillegal⟩ := runCommand_raises ((step_of_inbox hi).symm.trans h)
  have hle := c.code_le_five
  rw [hc]
  refine ⟨Condition.code_injective.eq_iff.trans hillegal, ?_, ?_⟩
  · intro h6
    simp [h6] at hle
  · intro h7
    simp [h7] at hle

/-- Settles O33: the primitives read neither register, the composites forget `EMIT_CNT` first, and every outcome writes both. -/
theorem operationsIgnoreTheLastOutcome : Obligations.OperationsIgnoreTheLastOutcome :=
  fun s i c e => exec_withOutcome c e s i

end Sys2Proof
end

section
/-!
Proofs of the statements about reset and the hosts (spec/70_reset_and_hazards.md): reset (R195), and the two host programs (R207, R208).
A host that meets its block with no undrained record leaves it so after every event, and has printed what the function level shows of
the event's payload. That is proved once for the drain, once for the loop, and for each host's event.
-/

namespace Sys2Proof.Machine

/-! ## What the composites emit, in terms of the function level -/

section
variable {s v : State} {p : List Byte} (hp : s.HoldsPacket p)
include hp

theorem State.HoldsPacket.liveBody_out {t : LineNo} (hv : liveBody t s = .next v) :
    v.out = s.out ++ (fLive s.params t.toNat p).toList := by
  cases hl : fDecodeHeader p with
  | none =>
    cases (hp.liveBody_short (fDecodeHeader_eq_none_iff.mp hl)).symm.trans hv
    simp [fLive, hl]
  | some l =>
    cases ht : fSelectLine l.toNat t.toNat with
    | none =>
      cases (hp.liveBody_no_match hl ht).symm.trans hv
      simp [fLive, hl, ht]
    | some i =>
      cases hc : fDecodePixelLine s.params.bpl (pixelPayload p) i with
      | none =>
        cases (hp.liveBody_incomplete hl ht hc).symm.trans hv
        simp [fLive, hl, ht, hc]
      | some c =>
        cases (hp.liveBody_line hl ht hc).symm.trans hv
        simp [fLive, hl, ht, hc]

theorem State.HoldsPacket.execRply_out (hv : execRply s = .next v) : v.out = s.out ++ fReplay s.params p := by
  cases hl : fDecodeHeader p with
  | none =>
    cases (hp.execRply_short (fDecodeHeader_eq_none_iff.mp hl)).symm.trans hv
    simp [fReplay, hl]
  | some l =>
    cases (hp.execRply_lines hl).symm.trans hv
    simp [fReplay, hl]

end

/-- Where `OUT` was empty, `EMIT_CNT` counts what is in it (R27). -/
theorem State.Appends.emitCnt_of_out_nil {s t : State} {most : Nat} (h : s.Appends t most) (ho : s.out = []) :
    t.emitCnt.toNat = t.out.length := by
  obtain ⟨rs, hrs, he, -⟩ := h
  rw [he, hrs, ho, List.nil_append]

/-! ## A cut packet shows what the uncut one shows -/

section
variable {prm : Config.Params} (hprm : prm.wf = true)
include hprm

theorem fLive_take (target : Nat) (p : List Byte) : fLive prm target (p.take 2048) = fLive prm target p := by
  obtain ⟨hheader, hline⟩ := cuttingAPacketChangesNothing prm p hprm
  simp only [fLive, hheader, hline]

theorem fReplay_take (p : List Byte) : fReplay prm (p.take 2048) = fReplay prm p := by
  obtain ⟨hheader, hline⟩ := cuttingAPacketChangesNothing prm p hprm
  simp only [fReplay, hheader, funext hline]

end

/-! ## What a host's program leaves and prints -/

/-- The block has the parameters `prm` and no undrained record. -/
def HostRun.Ready (prm : Config.Params) (h : HostRun) : Prop := h.block.params = prm ∧ h.block.out = []

/-- `r` answers a run that is ready, in which the host has printed `lines` after what it had printed in `h`. -/
def HostRun.Prints (prm : Config.Params) (h : HostRun) (lines : List Record) (r : HostResult) : Prop :=
  ∃ g, r = .next g ∧ g.Ready prm ∧ g.printed = h.printed ++ lines

section
variable {prm : Config.Params}

theorem HostRun.Ready.prints_nil {h : HostRun} (hh : h.Ready prm) : h.Prints prm [] (.next h) :=
  ⟨h, rfl, hh, (List.append_nil _).symm⟩

theorem thenDo_of_next {x : Transaction} {s u : State} (hu : serve x s = .next u) (k : State → HostResult) : thenDo x s k = k u := by
  rw [thenDo, hu]

/-- As many drains as there are records print them all, oldest first (R29). -/
theorem drainAndPrint_prints {h : HostRun} (hprm : h.block.params = prm) :
    h.Prints prm h.block.out (drainAndPrint h.block.out.length h) := by
  generalize hrs : h.block.out = rs
  induction rs generalizing h with
  | nil => exact HostRun.Ready.prints_nil ⟨hprm, hrs⟩
  | cons r rs ih =>
    obtain ⟨g, hg, hready, hprinted⟩ := ih (h := ⟨({ h.block with out := rs } : State).give (.record r), h.printed ++ [r]⟩) hprm rfl
    refine ⟨g, ?_, hready, by simp [hprinted]⟩
    rw [List.length_cons, drainAndPrint, thenDo_of_next (x := .drain) (drainRecord_of_out_cons hrs)]
    exact hg

/-- Loading a packet and issuing a command is running its operation on the loaded packet (R33, R87). -/
theorem loadThenRun {p : List Byte} {w : CmdWord} {i : Instr} {s v : State} (hp : p.length ≤ 2048) (hw : decode w = .ok i)
    (hv : exec i (loaded p s) = .next v) (k : State → HostResult) :
    thenDo (.load p) s (fun u => thenDo (.command w) u k) = k v := by
  rw [thenDo_of_next (x := .load p) (loadPacket_of_fits hp s), thenDo_of_next (x := .command w) ((runCommand_of_decode hw _).trans hv)]

/-- A host's loop prints what its events print, one after the other, when each event leaves the run ready for the next. -/
theorem hostLoop_prints {ε : Type} {event : ε → HostRun → HostResult} {loop : List ε → HostRun → HostResult} {lines : ε → List Record}
    (hnil : ∀ h, loop [] h = .next h) (hcons : ∀ e es h g, event e h = .next g → loop (e :: es) h = loop es g)
    (hevent : ∀ e (h : HostRun), h.Ready prm → h.Prints prm (lines e) (event e h)) (es : List ε) {h : HostRun} (hh : h.Ready prm) :
    h.Prints prm (es.flatMap lines) (loop es h) := by
  induction es generalizing h with
  | nil =>
    rw [hnil]
    exact hh.prints_nil
  | cons e es ih =>
    obtain ⟨g, hg, hready, hprinted⟩ := hevent e h hh
    obtain ⟨f, hf, hfready, hfprinted⟩ := ih hready
    exact ⟨f, (hcons e es h g hg).trans hf, hfready, by simp [hfprinted, hprinted]⟩

/-! ## One event of each host -/

/-- The host drains when `EMIT_CNT = 1`; LIVE emits no record otherwise, so that is draining all there are (R207). -/
theorem drainOne_eq_drainAll {v : State} {line : Option Record} (ho : v.out = line.toList) (he : v.emitCnt.toNat = v.out.length)
    (printed : List Record) :
    (if v.emitCnt = 1 then drainAndPrint 1 ⟨v, printed⟩ else .next ⟨v, printed⟩) = drainAndPrint v.out.length ⟨v, printed⟩ := by
  have hone : v.emitCnt = 1 ↔ v.out.length = 1 := by
    rw [← he, ← BitVec.toNat_inj]
    rfl
  cases line with
  | none =>
    rw [if_neg (mt hone.mp (by simp [ho])), ho]
    rfl
  | some r => rw [if_pos (hone.mpr (by simp [ho])), ho, Option.toList_some, List.length_singleton]

variable (hprm : prm.wf = true) {h : HostRun} (hh : h.Ready prm)
include hprm hh

theorem liveEvent_prints (d : Option (List Byte)) : h.Prints prm (d.bind (fLive prm 136)).toList (liveEvent d h) := by
  obtain ⟨rfl, hout⟩ := hh
  cases d with
  | none => exact HostRun.Ready.prints_nil ⟨rfl, hout⟩
  | some p =>
    have hfits : (p.take 2048).length ≤ 2048 := List.length_take_le 2048 p
    have hold := loaded_holdsPacket h.block (p.take 2048) hfits
    obtain ⟨v, hv⟩ := liveBody_completes hold Config.middleLine
    have ho : v.out = (fLive h.block.params 136 p).toList := by
      rw [← fLive_take hprm, hold.liveBody_out hv]
      simp [hout]
    have he : v.emitCnt.toNat = v.out.length := (liveBody_appends hv).emitCnt_of_out_nil hout
    rw [liveEvent, liveDatagram, loadThenRun hfits (i := .live 136) rfl hv, drainOne_eq_drainAll ho he, Option.bind_some, ← ho]
    exact drainAndPrint_prints (h := ⟨v, h.printed⟩) (liveBody_sameInputs hv).params

theorem replayFrame_prints (payload : Option (List Byte)) :
    h.Prints prm ((payload.map (fReplay prm)).getD []) (replayFrame payload h) := by
  obtain ⟨rfl, hout⟩ := hh
  cases payload with
  | none => exact HostRun.Ready.prints_nil ⟨rfl, hout⟩
  | some p =>
    rw [Option.map_some, Option.getD_some, replayFrame]
    split
    case isTrue hshort =>
      rw [fReplay, fDecodeHeader_of_short hshort]
      exact HostRun.Ready.prints_nil ⟨rfl, hout⟩
    case isFalse =>
      have hfits : (p.take 2048).length ≤ 2048 := List.length_take_le 2048 p
      have hold := loaded_holdsPacket h.block (p.take 2048) hfits
      obtain ⟨v, hv⟩ := execRply_completes hold
      have ho : v.out = fReplay h.block.params p := by
        rw [← fReplay_take hprm, hold.execRply_out hv]
        simp [hout]
      have he : v.emitCnt.toNat = v.out.length := (execRply_appends hv).emitCnt_of_out_nil hout
      rw [loadThenRun hfits (i := .rply) rfl hv, he, ← ho]
      exact drainAndPrint_prints (h := ⟨v, h.printed⟩) (execRply_sameInputs hv).params

end

end Sys2Proof.Machine

namespace Sys2Proof

open Machine

/-- Settles O59: every event of the live host prints the line the function level shows of its datagram, if any. -/
theorem liveHostPrintsTheWantedLines : Obligations.LiveHostPrintsTheWantedLines := by
  intro s ds hwf hout
  obtain ⟨t, ht, ⟨-, hempty⟩, hprinted⟩ := hostLoop_prints (loop := liveHost) (h := ⟨s, []⟩) (event := liveEvent) (fun _ => rfl)
    (fun d ds h g hg => by rw [liveHost, hg]) (fun d h hh => liveEvent_prints hwf hh d) ds ⟨rfl, hout⟩
  exact ⟨t, ht, hempty, hprinted.trans (List.filterMap_eq_flatMap_toList _ _).symm⟩

/-- Settles O60: every frame of the replay host prints the lines the function level shows of its payload, if any. -/
theorem replayHostPrintsEveryCompleteLine : Obligations.ReplayHostPrintsEveryCompleteLine := by
  intro s ps hwf hout
  obtain ⟨t, ht, ⟨-, hempty⟩, hprinted⟩ := hostLoop_prints (loop := replayHost) (h := ⟨s, []⟩) (event := replayFrame) (fun _ => rfl)
    (fun p ps h g hg => by rw [replayHost, hg]) (fun p h hh => replayFrame_prints hwf hh p) ps ⟨rfl, hout⟩
  exact ⟨t, ht, hempty, hprinted⟩

/-- Settles O15: the reset state is a literal but for the parameters, and its `PKT_LEN` is 0, so no byte is below it. -/
theorem resetPutsEveryRegisterToItsValue : Obligations.ResetPutsEveryRegisterToItsValue :=
  fun _ _ h => ⟨_, step_of_inbox h, rfl, rfl, rfl, rfl, rfl, rfl, rfl, rfl, rfl, rfl,
    show State.reset.status = 0 from rfl, fun a => ⟨_, State.memRead_beyond (Nat.zero_le a)⟩, rfl⟩

end Sys2Proof
end
